-- ==== Sys2Proof/Word.lean ====
section
/-! DEFINITION. The words of the wire: bytes, addresses, labels and zone codes as the frames of chapter 11 carry them. -/

namespace Sys2Proof

/-- One byte of a frame. -/
abbrev Byte := BitVec 8

/-- A six-byte Ethernet address. -/
abbrev Address := BitVec 48

/-- A label as packed BCD: 12 digits, the first digit in the highest half-byte (R174). -/
abbrev Label := BitVec 48

/-- A zone code as packed BCD: 6 digits, the first digit in the highest half-byte (R174). -/
abbrev ZoneCode := BitVec 24

end Sys2Proof
end

