-- ==== Sys2Proof/Config.lean ====
section
/-! DEFINITION. What is fixed for the part (capacities of 00_scope.md and of the chapters) and the free values: constants without a body for what the manual leaves open. -/

namespace Sys2Proof.Config

/-- Records the pallet table can hold (R8). -/
abbrev palletCapacity : Nat := 4096

/-- Entries the repeat list can hold (R5). -/
abbrev repeatCapacity : Nat := 64

/-- Entries one zone table can hold (R23). -/
abbrev zoneCapacity : Nat := 2048

/-- Frames one pass-through queue can hold (R160). -/
abbrev passCapacity : Nat := 64

/-- Frames one own-frame queue can hold (R160). -/
abbrev ownCapacity : Nat := 256

/-- Management frames that can be in progress (R166). -/
abbrev frameCapacity : Nat := 4

/-- Requests one management frame can carry (R166). -/
abbrev requestCapacity : Nat := 32

/-- Bytes the records of one reply can take together (R168). -/
abbrev replyRecordBytes : Nat := 1400

/-- The last second of the shift clock (R38). -/
abbrev lastSecond : Nat := 86399

/-- Reference periods in one second (R38). -/
abbrev periodsPerSecond : Nat := 25000000

/-- The largest measured weight a scan keeps (R3). -/
abbrev heaviestMeasured : Nat := 2000

/-- The largest measured weight that stays on the normal path (R13). -/
abbrev heaviestSafe : Nat := 1500

/-- The last booking sequence number before the counter goes to 1 (R61). -/
abbrev lastSequence : Nat := 4294967295

/-- The last move number before numbering goes to 1 (R102). -/
abbrev lastMoveNumber : Nat := 65535

/-- The most items of work one event may take in the model before it stops with a fault.
DESIGN CHOICE, safe: log 15. -/
def eventBound : Nat := 2 ^ 40

/-- FREE VALUE. Whether the trunk table takes its clock report before the move arbiter does, at the
n-th draw: R41 states no order between blocks. DESIGN CHOICE, safe: log 4. -/
opaque trunkReportFirst : Nat → Bool

/-- FREE VALUE. The tag in the reply to a management frame whose body ends before its tag, at the
n-th draw (R166, R175). DESIGN CHOICE, safe: log 17. -/
opaque missingTag : Nat → BitVec 16

end Sys2Proof.Config
end

