-- ==== Sys2Proof/Syntax.lean ====
section
/-! DEFINITION. The commands: one constructor of `Instr` per row of spec/opcode_table.json, with the fields chapter 11 gives it. -/

namespace Sys2Proof

/-- The two Ethernet ports (R160). -/
inductive Port where
  | floor
  | yard
  deriving DecidableEq, Repr

/-- A frame as received: every byte from the destination address to the check sequence (11.1). -/
structure RawFrame where
  bytes : List Byte
  deriving DecidableEq, Repr

/-- The scan body of 11.2 but for its place kind byte; the reserved byte is ignored on receipt. -/
structure ScanFields where
  number : Byte
  label : Label
  zone : ZoneCode
  cls : Byte
  type : Byte
  kg : BitVec 16
  deriving DecidableEq, Repr

/-- A command: one event that the outside, a port, the clock or the management unit brings to the
part. The docstring of each family names its rules. -/
inductive Instr where
  /-- SCAN frames, by place kind (R7); `src` is the reader's address (R21). -/
  | intakeScan (src : Address) (scan : ScanFields)
  | laneScan (src : Address) (scan : ScanFields)
  | loadScan (src : Address) (scan : ScanFields)
  | reworkScan (src : Address) (scan : ScanFields)
  | badPlaceKindScan (src : Address) (kind : Byte) (scan : ScanFields)
  /-- TERMINAL frames, by frame kind (R108); `src` is the terminal's address. -/
  | signOn (src : Address) (mover : Byte)
  | signOff (mover : Byte)
  | accept (mover : Byte) (move : BitVec 16)
  | decline (mover : Byte) (move : BitVec 16)
  | abandon (mover : Byte) (move : BitVec 16)
  /-- Deadlines that the clock's reports reach (R41) and the clock's own advance (R38). -/
  | acceptTimeout (mover : Byte)
  | doneTimeout (mover : Byte)
  | clockAdvance
  | closeTimeReached (trunk : Byte)
  | cutoffReached (trunk : Byte)
  /-- The ports (R161, R162, R164) and the resets; the strap pins as they stand (R165). -/
  | forwardFrame (port : Port) (frame : RawFrame)
  | discardFrame (port : Port) (frame : RawFrame)
  | transmissionEnd (port : Port) (hub : Byte) (unit : BitVec 4)
  | pinReset (hub : Byte) (unit : BitVec 4)
  /-- A management frame from YARD (R166): its source address and its body. -/
  | mgmtFrame (src : Address) (body : List Byte)
  /-- The requests of a management frame, with the parameters of R175's table. -/
  | badRequestCode (code : Byte) (params : List Byte)
  | readPallet (label : Label)
  | probe (kind : Byte) (scan : ScanFields)
  | putZone (first last : ZoneCode) (depot hold : Byte)
  | dropZone (first : ZoneCode)
  | putDepotRow (depot cls count t1 t2 t3 t4 : Byte)
  | dropDepotRow (depot cls : Byte)
  | copyBank
  | clearBank
  | switchBank
  | readZone (role : Byte) (zone : ZoneCode)
  | readDepotRow (role depot cls : Byte)
  | startShift (time : BitVec 32)
  | stopShift
  | readClock
  | putTrailerClass (cls rows : Byte)
      (pitch front axle kingpinTare axleTare kingpinLimit axleLimit payload : BitVec 16)
  | readTrailerClass (cls : Byte)
  | putTrunk (trunk dropA dropB cls : Byte) (cutoff : BitVec 32) (margin : BitVec 16)
  | setCutoff (trunk : Byte) (cutoff : BitVec 32) (margin : BitVec 16)
  | dropTrunk (trunk : Byte)
  /-- PLACE with mode ACTIVE; `mode` is its mode byte, 0 or a code that is neither mode (log 21). -/
  | placeActive (trunk door mode : Byte)
  | placeNext (trunk door : Byte)
  | depart (trunk : Byte)
  | setDoor (door slots reserve depth burst : Byte)
  | readTrunk (trunk start : Byte)
  | readDoor (door : Byte)
  | readMover (mover : Byte)
  | forceRelease (door : Byte)
  | removePallet (label : Label)
  | clearNotice (set : BitVec 16)
  | testNotice (value : BitVec 16)
  | setNotice (set : BitVec 16) (enableA enableB bothWays keepAll : Byte)
  | setChannel (channel presence : Byte) (address : Address)
  | readNotices
  | setLimits (repeatWindow acceptTimeout : Byte)
      (doneTimeout allowance threshold highWater : BitVec 16)
  | setOutputs (address : Address)
  | readSettings
  /-- RESTART with kind FULL; `kind` is its kind byte, 0 or a code that is neither kind (log 21). -/
  | restartFull (kind : Byte)
  | restartFloor
  deriving DecidableEq, Repr

/-- What a port does with a received frame (R161). -/
inductive FrameClass where
  | forward
  | discard
  | take (c : Instr)
  deriving DecidableEq, Repr

end Sys2Proof
end

