-- ==== Sys2Proof/Decode.lean ====
section
/-! DEFINITION. From bytes to commands (R161, R174, R175): the classification of a received frame, the elements of a management body and the requests by code and parameter length; the request's encoding beside it; and `decodeTableWord`. -/

namespace Sys2Proof

/-! ## Bytes -/

/-- Two bytes, big-endian (R174). -/
def cat2 (a b : Byte) : BitVec 16 := a ++ b

/-- Three bytes, big-endian. -/
def cat3 (a b c : Byte) : BitVec 24 := a ++ b ++ c

/-- Four bytes, big-endian. -/
def cat4 (a b c d : Byte) : BitVec 32 := a ++ b ++ c ++ d

/-- Six bytes, big-endian. -/
def cat6 (a b c d e f : Byte) : BitVec 48 := a ++ b ++ c ++ d ++ e ++ f

/-- The bytes of a field, big-endian: `n` bytes, the first one highest (R174). -/
def bytesOf {w : Nat} (x : BitVec w) : Nat → List Byte
  | 0 => []
  | n + 1 => x.extractLsb' (8 * n) 8 :: bytesOf x n

/-- Byte `i` of a list, zero past its end. -/
def byteAt (bs : List Byte) (i : Nat) : Byte := bs.getD i 0

/-! ## The Ethernet check sequence (R161, R174) -/

/-- One bit of the Ethernet check: a shift, with the polynomial taken in when a one is shifted out.
PRESUMED, log 14. -/
def checkBit (r : BitVec 32) : BitVec 32 :=
  if r.getLsbD 0 then (r >>> 1) ^^^ 0xEDB88320#32 else r >>> 1

/-- One byte of the Ethernet check, its low bit first. -/
def checkByte (r : BitVec 32) (b : Byte) : BitVec 32 :=
  (List.range 8).foldl (fun r _ => checkBit r) (r ^^^ b.zeroExtend 32)

/-- The Ethernet check of the bytes of a frame from its destination address on: CRC-32 (PRESUMED,
log 14). -/
def checkValue (bs : List Byte) : BitVec 32 := ~~~(bs.foldl checkByte 0xFFFFFFFF#32)

/-- The check sequence that a port appends to the bytes of a frame (R174), its low byte first. -/
def checkSequence (bs : List Byte) : List Byte := (bytesOf (checkValue bs) 4).reverse

/-- The bytes of a received frame before its check sequence, which is its last four bytes. -/
def RawFrame.content (f : RawFrame) : List Byte := f.bytes.take (f.bytes.length - 4)

/-- Whether the check sequence of a received frame is right (R161): the one of its other bytes. -/
def RawFrame.checkOk (f : RawFrame) : Bool :=
  f.bytes.drop (f.bytes.length - 4) == checkSequence f.content

/-! ## Scan bodies -/

/-- The scan fields in the 16 bytes of a scan body (11.2); byte 13 is reserved. -/
def scanOf (bs : List Byte) : ScanFields where
  number := byteAt bs 1
  label := cat6 (byteAt bs 2) (byteAt bs 3) (byteAt bs 4) (byteAt bs 5) (byteAt bs 6) (byteAt bs 7)
  zone := cat3 (byteAt bs 8) (byteAt bs 9) (byteAt bs 10)
  cls := byteAt bs 11
  type := byteAt bs 12
  kg := cat2 (byteAt bs 14) (byteAt bs 15)

/-- The 16 bytes of a scan body, its reserved byte zero (11.2). -/
def scanBytes (kind : Byte) (scan : ScanFields) : List Byte :=
  [kind, scan.number] ++ bytesOf scan.label 6 ++ bytesOf scan.zone 3 ++
    [scan.cls, scan.type, 0] ++ bytesOf scan.kg 2

/-- The command a scan body is, by its place kind byte (11.2, R1). -/
def scanCommand (src : Address) (bs : List Byte) : Instr :=
  match (byteAt bs 0).toNat with
  | 0 => .intakeScan src (scanOf bs)
  | 1 => .laneScan src (scanOf bs)
  | 2 => .loadScan src (scanOf bs)
  | 3 => .reworkScan src (scanOf bs)
  | _ => .badPlaceKindScan src (byteAt bs 0) (scanOf bs)

/-- The command a terminal body is, by its frame kind byte; none for a code outside the five,
which R108 ignores. -/
def terminalCommand (src : Address) (bs : List Byte) : Option Instr :=
  let mover := byteAt bs 0
  let move := cat2 (byteAt bs 2) (byteAt bs 3)
  match (byteAt bs 1).toNat with
  | 1 => some (.signOn src mover)
  | 2 => some (.signOff mover)
  | 3 => some (.accept mover move)
  | 4 => some (.decline mover move)
  | 5 => some (.abandon mover move)
  | _ => none

/-! ## Requests -/

/-- The request an element is, by its code and its parameter bytes (R175). A code that is not in
the table, or a parameter list of another length, is BAD_REQUEST_CODE (R167). -/
def decodeRequest (code : Byte) (params : List Byte) : Instr :=
  match code.toNat, params with
  | 0x01, [a, b, c, d, e, f] => .readPallet (cat6 a b c d e f)
  | 0x02, [k, n, a, b, c, d, e, f, z, y, x, cls, ty, r, g, h] =>
      .probe k (scanOf [k, n, a, b, c, d, e, f, z, y, x, cls, ty, r, g, h])
  | 0x03, [a, b, c, d, e, f, depot, hold] => .putZone (cat3 a b c) (cat3 d e f) depot hold
  | 0x04, [a, b, c] => .dropZone (cat3 a b c)
  | 0x05, [depot, cls, count, a, b, c, d] => .putDepotRow depot cls count a b c d
  | 0x06, [depot, cls] => .dropDepotRow depot cls
  | 0x07, [] => .copyBank
  | 0x08, [] => .clearBank
  | 0x09, [] => .switchBank
  | 0x0A, [role, a, b, c] => .readZone role (cat3 a b c)
  | 0x0B, [role, depot, cls] => .readDepotRow role depot cls
  | 0x10, [a, b, c, d] => .startShift (cat4 a b c d)
  | 0x11, [] => .stopShift
  | 0x12, [] => .readClock
  | 0x13, [cls, n, p, p', f, f', a, a', tk, tk', ta, ta', kl, kl', al, al', pl, pl'] =>
      .putTrailerClass cls n (cat2 p p') (cat2 f f') (cat2 a a') (cat2 tk tk') (cat2 ta ta')
        (cat2 kl kl') (cat2 al al') (cat2 pl pl')
  | 0x14, [cls] => .readTrailerClass cls
  | 0x15, [t, da, db, cls, a, b, c, d, m, m'] =>
      .putTrunk t da db cls (cat4 a b c d) (cat2 m m')
  | 0x16, [t, a, b, c, d, m, m'] => .setCutoff t (cat4 a b c d) (cat2 m m')
  | 0x17, [t] => .dropTrunk t
  | 0x18, [t, door, mode] => if mode = 1 then .placeNext t door else .placeActive t door mode
  | 0x19, [t] => .depart t
  | 0x1A, [door, slots, reserve, depth, burst] => .setDoor door slots reserve depth burst
  | 0x1B, [t, start] => .readTrunk t start
  | 0x1C, [door] => .readDoor door
  | 0x20, [mover] => .readMover mover
  | 0x21, [door] => .forceRelease door
  | 0x22, [a, b, c, d, e, f] => .removePallet (cat6 a b c d e f)
  | 0x30, [a, b] => .clearNotice (cat2 a b)
  | 0x31, [a, b] => .testNotice (cat2 a b)
  | 0x32, [a, b, ea, eb, both, keep] => .setNotice (cat2 a b) ea eb both keep
  | 0x33, [ch, pr, a, b, c, d, e, f] => .setChannel ch pr (cat6 a b c d e f)
  | 0x34, [] => .readNotices
  | 0x40, [rw, at', a, b, c, d, e, f, g, h] =>
      .setLimits rw at' (cat2 a b) (cat2 c d) (cat2 e f) (cat2 g h)
  | 0x41, [a, b, c, d, e, f] => .setOutputs (cat6 a b c d e f)
  | 0x42, [] => .readSettings
  | 0x4F, [kind] => if kind = 1 then .restartFloor else .restartFull kind
  | _, _ => .badRequestCode code params

/-- The element (request code, parameter bytes) that a request command is sent as (R175); none for
a command that is no request. Reserved bytes are sent as zero. -/
def encodeRequest : Instr → Option (Byte × List Byte)
  | .badRequestCode code params => some (code, params)
  | .readPallet l => some (0x01, bytesOf l 6)
  | .probe k scan => some (0x02, scanBytes k scan)
  | .putZone f l depot hold => some (0x03, bytesOf f 3 ++ bytesOf l 3 ++ [depot, hold])
  | .dropZone f => some (0x04, bytesOf f 3)
  | .putDepotRow depot cls count a b c d => some (0x05, [depot, cls, count, a, b, c, d])
  | .dropDepotRow depot cls => some (0x06, [depot, cls])
  | .copyBank => some (0x07, [])
  | .clearBank => some (0x08, [])
  | .switchBank => some (0x09, [])
  | .readZone role z => some (0x0A, role :: bytesOf z 3)
  | .readDepotRow role depot cls => some (0x0B, [role, depot, cls])
  | .startShift t => some (0x10, bytesOf t 4)
  | .stopShift => some (0x11, [])
  | .readClock => some (0x12, [])
  | .putTrailerClass cls n p f a tk ta kl al pl =>
      some (0x13, [cls, n] ++ bytesOf p 2 ++ bytesOf f 2 ++ bytesOf a 2 ++ bytesOf tk 2 ++
        bytesOf ta 2 ++ bytesOf kl 2 ++ bytesOf al 2 ++ bytesOf pl 2)
  | .readTrailerClass cls => some (0x14, [cls])
  | .putTrunk t da db cls cut m => some (0x15, [t, da, db, cls] ++ bytesOf cut 4 ++ bytesOf m 2)
  | .setCutoff t cut m => some (0x16, t :: (bytesOf cut 4 ++ bytesOf m 2))
  | .dropTrunk t => some (0x17, [t])
  | .placeActive t door mode => some (0x18, [t, door, mode])
  | .placeNext t door => some (0x18, [t, door, 1])
  | .depart t => some (0x19, [t])
  | .setDoor door slots reserve depth burst => some (0x1A, [door, slots, reserve, depth, burst])
  | .readTrunk t start => some (0x1B, [t, start])
  | .readDoor door => some (0x1C, [door])
  | .readMover mover => some (0x20, [mover])
  | .forceRelease door => some (0x21, [door])
  | .removePallet l => some (0x22, bytesOf l 6)
  | .clearNotice set => some (0x30, bytesOf set 2)
  | .testNotice v => some (0x31, bytesOf v 2)
  | .setNotice set ea eb both keep => some (0x32, bytesOf set 2 ++ [ea, eb, both, keep])
  | .setChannel ch pr a => some (0x33, [ch, pr] ++ bytesOf a 6)
  | .readNotices => some (0x34, [])
  | .setLimits rw at' dn al th hw =>
      some (0x40, [rw, at'] ++ bytesOf dn 2 ++ bytesOf al 2 ++ bytesOf th 2 ++ bytesOf hw 2)
  | .setOutputs a => some (0x41, bytesOf a 6)
  | .readSettings => some (0x42, [])
  | .restartFull kind => some (0x4F, [kind])
  | .restartFloor => some (0x4F, [1])
  | _ => none

/-! ## Frames -/

/-- The frame type of the Erwaz header (11.1), high byte first. -/
def erwazType : Byte × Byte := (0xB5, 0xD2)

/-- Whether bytes 12 and 13 of a frame hold the Erwaz frame type (11.1). -/
def isErwaz (bs : List Byte) : Bool :=
  14 ≤ bs.length && byteAt bs 12 == erwazType.1 && byteAt bs 13 == erwazType.2

/-- The source address of a frame (11.1). -/
def sourceOf (bs : List Byte) : Address :=
  cat6 (byteAt bs 6) (byteAt bs 7) (byteAt bs 8) (byteAt bs 9) (byteAt bs 10) (byteAt bs 11)

/-- What the part does with a matching frame, by port and frame kind (the table of R161). The lengths
tested are those of every byte between the header and the check sequence (DESIGN CHOICE, log 46). -/
def classifyMatching (port : Port) (kind : Byte) (src : Address) (body : List Byte) : FrameClass :=
  match port, kind.toNat with
  | .floor, 1 => if body.length < 16 then .discard else .take (scanCommand src body)
  | .floor, 2 =>
      if body.length < 4 then .discard
      else match terminalCommand src body with
        | some c => .take c
        | none => .discard
  | .yard, 3 => .take (.mgmtFrame src body)
  | _, _ => .discard

/-- The classification of a received frame (R161). The last four bytes are the check sequence. A
frame whose check sequence is wrong is dropped; a frame that is not of the Erwaz type, is too short
for the Erwaz header or carries another hub or unit number is forwarded. The body is taken to be every
byte between the header and the check sequence: the layout of 11.1 sets the padding apart from the body
and gives no body length, and no rule says whether padding counts in the length tests of R161, R166,
R174 and R175. That it counts is the model's: DESIGN CHOICE, log 46. -/
def classify (hub : Byte) (unit : BitVec 4) (port : Port) (f : RawFrame) : FrameClass :=
  let bs := f.content
  if !f.checkOk then .discard
  else if !isErwaz bs || bs.length < 18 then .forward
  else if byteAt bs 14 ≠ hub || byteAt bs 15 ≠ unit.zeroExtend 8 then .forward
  else classifyMatching port (byteAt bs 16) (sourceOf bs) (bs.drop 18)

/-- The counted elements of a management body: `n` elements walked by their parameter lengths; none
when they do not all fit (R175). Bytes after the last counted element are ignored. -/
def takeElements : Nat → List Byte → Option (List (Byte × List Byte))
  | 0, _ => some []
  | n + 1, code :: len :: rest =>
      if len.toNat ≤ rest.length then
        (takeElements n (rest.drop len.toNat)).map ((code, rest.take len.toNat) :: ·)
      else none
  | _ + 1, _ => none

/-! ## Table words -/

/-- The command a table word spells: spec/opcode_table.json gives no row any bits, so no word spells
a command. -/
def decodeTableWord (_nbits _w : Nat) : Option Instr := none

end Sys2Proof
end

