-- ==== Sys2Proof/Machine/State.lean ====
section
/-! DEFINITION. The state of the part as plain data: every record, list, counter and setting the spec gives it, the frames it sends as records, the queue of waiting commands, and the state after a pin reset. -/

namespace Sys2Proof.Machine

/-- A table of records by number: keys strictly rising, an unlisted key absent (log 35). -/
abbrev Table (α : Type) := List (Nat × α)

/-! ## Scans and pallet records (chapter 1) -/

/-- The four place kinds (section 1.1). -/
inductive PlaceKind where
  | intake | lane | load | rework
  deriving DecidableEq, Repr

/-- The service classes (section 1.1). -/
inductive ServiceClass where
  | standard | priority | am | timed
  deriving DecidableEq, Repr

/-- The pallet types (R10). -/
inductive PalletType where
  | full | light | half | quarter | mini
  deriving DecidableEq, Repr

/-- The eight pallet states (section 1.4). -/
inductive PalletState where
  | held | laneBound | staged | loadBound | loaded | misloaded | exception | atRework
  deriving DecidableEq, Repr

/-- The exception reasons (R140). -/
inductive Reason where
  | noRoute | zoneHeld | noTrunk | unsafeWeight | rebookFailed | stray
  deriving DecidableEq, Repr

/-- The drops of a trunk: A near, B far. -/
inductive Drop where
  | a | b
  deriving DecidableEq, Repr

/-- Where a pallet stands, or where a move goes (R11, R102). -/
inductive Location where
  | apron (n : Nat)
  | lane (d : Nat)
  | trailer (t : Nat)
  | rework
  deriving DecidableEq, Repr

/-- The seven flags of a pallet record (section 1.4). -/
structure PalletFlags where
  overweight : Bool := false
  fallback : Bool := false
  spill : Bool := false
  unplanned : Bool := false
  forced : Bool := false
  noFit : Bool := false
  mislaned : Bool := false
  deriving DecidableEq, Repr

/-- The kinds of move (R102). -/
inductive MoveKind where
  | put | shift | load | rework
  deriving DecidableEq, Repr

/-- The states of a live move (R102). -/
inductive MoveState where
  | queued | offered | accepted
  deriving DecidableEq, Repr

/-- The move part of a pallet record (R102), with the deadlines armed for it (R114, R115). The
destination of a LOAD is TRAILER of the trunk; its position is the record's own position field. -/
structure Move where
  number : Nat
  kind : MoveKind
  source : Location
  destination : Location
  queue : Nat
  state : MoveState := .queued
  mover : Option Nat := none
  overdue : Bool := false
  acceptDeadline : Option Nat := none
  doneDeadline : Option Nat := none
  deriving DecidableEq, Repr

/-- A pallet record (section 1.4). -/
structure Pallet where
  label : Label
  zone : ZoneCode
  cls : ServiceClass
  type : PalletType
  quarters : Nat
  typeLimit : Nat
  measured : Nat
  bookingKg : Nat
  intakeDoor : Nat
  intakeTime : Nat
  depot : Option Nat := none
  state : PalletState := .held
  reason : Option Reason := none
  trunk : Option Nat := none
  drop : Option Drop := none
  claimDoor : Option Nat := none
  location : Location
  move : Option Move := none
  position : Option Nat := none
  excluded : List Nat := []
  flags : PalletFlags := {}
  deriving DecidableEq, Repr

/-- An entry of the repeat list (section 1.2). -/
structure RepeatEntry where
  kind : PlaceKind
  number : Nat
  label : Label
  time : Nat
  deriving DecidableEq, Repr

/-! ## Route banks (chapter 2) -/

/-- An entry of a zone table, zones as decimal numbers (R23). -/
structure ZoneEntry where
  first : Nat
  last : Nat
  depot : Nat
  hold : Bool
  deriving DecidableEq, Repr

/-- A route bank: zone entries in ascending order and the rows by slot number (R23, R24). -/
structure Bank where
  zones : List ZoneEntry := []
  rows : Table (List Nat) := []
  deriving DecidableEq, Repr

/-- The number of a route bank (R22). -/
inductive BankNumber where
  | bank0 | bank1
  deriving DecidableEq, Repr

/-! ## Clock, classes, trunks and doors (chapters 3, 4 and 7) -/

/-- The shift clock (R38): its value, whether it is RUNNING, and the reference periods counted
toward the next advance. -/
structure Clock where
  value : Nat := 0
  running : Bool := false
  periods : Nat := 0
  deriving DecidableEq, Repr

/-- A trailer class (R43): N, P, F, A, TK, TA, KL, AL, PL. -/
structure TrailerClass where
  rows : Nat := 0
  pitch : Nat := 0
  front : Nat := 0
  axle : Nat := 0
  kingpinTare : Nat := 0
  axleTare : Nat := 0
  kingpinLimit : Nat := 0
  axleLimit : Nat := 0
  payload : Nat := 0
  deriving DecidableEq, Repr

/-- The standings of a booking (R61). -/
inductive Standing where
  | unreleased | released | loaded
  deriving DecidableEq, Repr

/-- A booking: one entry of a trunk's window (R61). -/
structure Booking where
  label : Label
  drop : Drop
  quarters : Nat
  kg : Nat
  seq : Nat
  standing : Standing := .unreleased
  deriving DecidableEq, Repr

/-- The placement of a trunk (R46). -/
inductive Placement where
  | unplaced
  | next (door : Nat)
  | active (door : Nat)
  deriving DecidableEq, Repr

/-- The phases of a trunk (section 3.3); `opened` is OPEN. -/
inductive Phase where
  | opened | closing | due
  deriving DecidableEq, Repr

/-- A trunk record (R46, R121). -/
structure Trunk where
  dropA : Nat
  dropB : Option Nat
  cls : Nat
  cutoff : Nat
  margin : Nat
  placement : Placement := .unplaced
  phase : Phase := .opened
  bookedQuarters : Nat := 0
  bookedKg : Nat := 0
  loadedQuarters : Nat := 0
  loadedKg : Nat := 0
  window : List Booking := []
  held : List Label := []
  openPosition : Option Nat := none
  fill : Nat := 0
  topWeight : Nat := 0
  plannedWeight : Nat := 0
  plannedMoment : Nat := 0
  inFlight : Nat := 0
  deriving DecidableEq, Repr

/-- A door record (R52), with its values after a pin reset; its move queue is in `State.queues`. -/
structure Door where
  slots : Nat := 0
  reserve : Nat := 0
  depth : Nat := 2
  burst : Nat := 1
  active : Option Nat := none
  next : Option Nat := none
  nextPending : Bool := false
  claims : Nat := 0
  hold : Bool := false
  deriving DecidableEq, Repr

/-! ## Movers (chapter 6) -/

/-- The states of a mover (R100). -/
inductive MoverState where
  | off | free | offered | busy | silent
  deriving DecidableEq, Repr

/-- A mover record (R100). -/
structure Mover where
  address : Option Address := none
  state : MoverState := .off
  move : Option Nat := none
  deriving DecidableEq, Repr

/-! ## Notices (chapter 9) -/

/-- The sixteen conditions, in the order of their numbers (R149). -/
inductive CondName where
  | balanceHold | lanePressure | moversShort | tableHigh
  | unrouted | weight | mislane | misload | flush | trunkClosing | trunkDue
  | moverSilent | moveOverdue | bankSwitch | duplicate | test
  deriving DecidableEq, Repr

/-- A subject: a kind and a value (R149). -/
inductive Subject where
  | door (n : Nat)
  | queue (n : Nat)
  | trunk (n : Nat)
  | mover (n : Nat)
  | label (l : Label)
  | bank (n : BankNumber)
  | count (n : Nat)
  | test (n : Nat)
  deriving DecidableEq, Repr

/-- A condition record (R149). -/
structure Condition where
  raw : Bool := false
  status : Bool := false
  subject : Option Subject := none
  enableA : Bool := false
  enableB : Bool := false
  bothWays : Bool := false
  deriving DecidableEq, Repr

/-! ## Verdicts, directives, replies and notices: what the part sends -/

/-- The verdict results, in the order of the table of R20. -/
inductive VerdictResult where
  | booked | held | staged | loaded | atRework | repeated | badPlace | badLabel | tableFull
  | noRoute | zoneHeld | noTrunk | unsafeWeight | duplicateLabel | mislane | misload | lateLoad
  | unknownPallet | noBooking
  deriving DecidableEq, Repr

/-- A verdict record (R19). The echo is the place kind byte and the scan's fields. -/
structure Verdict where
  echoKind : Byte
  echo : ScanFields
  result : VerdictResult
  state : Option PalletState := none
  trunk : Option Nat := none
  drop : Option Drop := none
  door : Option Nat := none
  candidate : Nat := 0
  flags : PalletFlags := {}
  position : Option Nat := none
  kingpin : Int := 0
  axle : Nat := 0
  deriving DecidableEq, Repr

/-- A directive (R107). -/
inductive Directive where
  | offer (mover number : Nat) (kind : MoveKind) (label : Label) (source destination : Location)
      (trunk position : Option Nat)
  | cancel (mover number : Nat)
  | redirect (mover number : Nat) (kind : MoveKind) (label : Label) (destination : Location)
  deriving DecidableEq, Repr

/-- The result codes (R169). -/
inductive Result where
  | done | badRequest | noSuch | outOfRange | overlap | tableFull | inUse | wrongState | notRun
  deriving DecidableEq, Repr

/-- The trunk record that READ_TRUNK returns (R59). -/
structure TrunkReport where
  dropA : Nat
  dropB : Option Nat
  cls : Nat
  cutoff : Nat
  margin : Nat
  closeTime : Nat
  placement : Placement
  phase : Phase
  bookedQuarters : Nat
  bookedKg : Nat
  loadedQuarters : Nat
  loadedKg : Nat
  windowLength : Nat
  unreleased : Nat
  released : Nat
  loaded : Nat
  heldLength : Nat
  openPosition : Option Nat
  fill : Nat
  topWeight : Nat
  plannedWeight : Nat
  plannedMoment : Nat
  inFlight : Nat
  entries : List Booking
  deriving DecidableEq, Repr

/-- The door record that READ_DOOR returns (R60). -/
structure DoorReport where
  slots : Nat
  reserve : Nat
  depth : Nat
  burst : Nat
  active : Option Nat
  next : Option Nat
  nextPending : Bool
  claims : Nat
  hold : Bool
  queueLength : Nat
  deriving DecidableEq, Repr

/-- The mover record that READ_MOVER returns (R120). -/
structure MoverReport where
  state : MoverState
  address : Option Address
  move : Option Nat
  label : Option Label
  place : Nat
  freeLength : Nat
  queue0Length : Nat
  deriving DecidableEq, Repr

/-- The release report of FORCE_RELEASE (R132). -/
structure ReleaseReport where
  label : Label
  position : Nat
  kingpin : Int
  axle : Nat
  deriving DecidableEq, Repr

/-- The six global limits (R170), with their values after a pin reset. -/
structure Limits where
  repeatWindow : Nat := 10
  acceptTimeout : Nat := 20
  doneTimeout : Nat := 600
  allowance : Nat := 45
  threshold : Nat := 600
  highWater : Nat := 3584
  deriving DecidableEq, Repr

/-- The settings that READ_SETTINGS returns (R172); the own address follows from hub and unit. -/
structure SettingsReport where
  limits : Limits
  verdictAddress : Address
  hub : Byte
  unit : BitVec 4
  frames : Nat
  deriving DecidableEq, Repr

/-- The notice unit's state that READ_NOTICES returns (R159). -/
structure NoticesReport where
  conditions : List Condition
  keepAll : Bool
  channelA : Option Address
  channelB : Option Address
  deriving DecidableEq, Repr

/-- The records that requests return (R168). An absent table entry is `none`. -/
inductive Record where
  | pallet (p : Option Pallet)
  | verdict (v : Verdict)
  | zone (bank : BankNumber) (count : Nat) (entry : Option ZoneEntry)
  | row (bank : BankNumber) (row : Option (List Nat))
  | clock (running : Bool) (value : Nat)
  | trailerClass (c : Option (TrailerClass × Nat))
  | trunk (t : Option TrunkReport)
  | door (d : DoorReport)
  | mover (m : MoverReport)
  | release (r : Option ReleaseReport)
  | notices (n : NoticesReport)
  | settings (s : SettingsReport)
  deriving DecidableEq, Repr

/-- A management reply (R168): one result per request, and each record with its request's place in
the list. -/
structure Reply where
  tag : BitVec 16
  status : Result
  results : List Result
  records : List (Nat × Record)
  deriving DecidableEq, Repr

/-- A notice (R154). -/
structure Notice where
  condition : CondName
  subject : Option Subject
  raw : Bool
  time : Nat
  deriving DecidableEq, Repr

/-- What an own frame carries (R163). -/
inductive OwnBody where
  | verdict (v : Verdict)
  | directive (d : Directive)
  | reply (r : Reply)
  | notice (n : Notice)
  deriving DecidableEq, Repr

/-- An own frame (R163): its destination, the hub and unit numbers it was built with, its body. -/
structure OwnFrame where
  dest : Address
  hub : Byte
  unit : BitVec 4
  body : OwnBody
  deriving DecidableEq, Repr

/-! ## Ports and management (chapter 10) -/

/-- A frame in transmission (R160). -/
inductive TxFrame where
  | own (f : OwnFrame)
  | pass (bytes : List Byte)
  deriving DecidableEq, Repr

/-- The transmit side of a port (R160). -/
structure PortState where
  pass : List (List Byte) := []
  own : List OwnFrame := []
  sending : Option TxFrame := none
  deriving DecidableEq, Repr

/-- A management frame in progress (R166): the elements not yet taken, and what the taken ones gave. -/
structure MgmtFrame where
  source : Address
  tag : BitVec 16
  stop : Bool
  left : List (Byte × List Byte)
  results : List Result := []
  records : List (Nat × Record) := []
  deriving DecidableEq, Repr

/-- The kinds of restart (R173). -/
inductive RestartKind where
  | full | floor
  deriving DecidableEq, Repr

/-- A pending restart (R173): its kind, its reply while that waits to be transmitted, and whether
the reply is now in transmission. -/
structure Restart where
  kind : RestartKind
  reply : Option OwnFrame
  begun : Bool
  deriving DecidableEq, Repr

/-- What the request taken last was answered: its result and its record. The model's own. -/
structure Answer where
  result : Result
  record : Option Record
  deriving DecidableEq, Repr

/-- The broadcast address (R171); its six bytes 0xFF are Ethernet's. PRESUMED: log 13. -/
def broadcast : Address := 0xFFFFFFFFFFFF

/-- The state of the part. The last three fields are the model's own (log 16). -/
structure State where
  floor : PortState := {}
  yard : PortState := {}
  hub : Byte := 0
  unit : BitVec 4 := 0
  repeats : List RepeatEntry := []
  pallets : Table Pallet := []
  bank0 : Bank := {}
  bank1 : Bank := {}
  active : BankNumber := .bank0
  clock : Clock := {}
  classes : Table TrailerClass := []
  trunks : Table Trunk := []
  bookingCounter : Nat := 1
  doors : Vector Door 48 := Vector.replicate 48 {}
  movers : Vector Mover 32 := Vector.replicate 32 {}
  freeList : List Nat := []
  queues : Vector (List Label) 49 := Vector.replicate 49 []
  lastMove : Nat := 0
  urgent : List Nat := List.range 49
  normal : List Nat := List.range 49
  bursts : Vector Nat 49 := Vector.replicate 49 0
  conditions : Vector Condition 16 := Vector.replicate 16 {}
  keepAll : Bool := false
  channelA : Option Address := none
  channelB : Option Address := none
  limits : Limits := {}
  verdictAddress : Address := broadcast
  frames : List MgmtFrame := []
  turn : Nat := 0
  restart : Option Restart := none
  pending : List Instr := []
  answer : Option Answer := none
  freeCount : Nat := 0
  deriving DecidableEq, Repr

/-- The part right after a pin reset (the table of R173), no command waiting. The strap values are
sampled from pins; here both are 0 (DESIGN CHOICE, unsafe: log 12). -/
def State.reset : State := {}

/-! ## Stops -/

/-- The faults. -/
inductive Fault where
  /-- Raised by `runEvent` when an event's work is not spent after `Config.eventBound` items. No rule
  of the spec stops the part; safe, since the model stops where the part would go on (log 15). -/
  | eventUnfinished
  deriving DecidableEq, Repr

/-- The refusals. -/
inductive Refusal where
  /-- Raised by `exec` for a command without a meaning; safe. No arm raises it. -/
  | notModelled (mnemonic : String)
  deriving DecidableEq, Repr

end Sys2Proof.Machine
end

