-- ==== Sys2Proof/Machine/Operands.lean ====
section
/-! DEFINITION. Operands as the rules read them: packed decimal digits, the check digit, the place table, the clamping of a scan, and the codes of chapter 11. -/

namespace Sys2Proof.Machine

/-! ## Packed decimal digits (R2, R174) -/

/-- The half-bytes of `x`, the first (highest) one first: `n` of them. -/
def nibbles (x : Nat) : Nat → List Nat
  | 0 => []
  | n + 1 => (x / 16 ^ n % 16) :: nibbles x n

/-- Whether every half-byte is a decimal digit (R2). -/
def isDecimal (ds : List Nat) : Bool := ds.all (· ≤ 9)

/-- A digit string read as a decimal number. -/
def decimalValue (ds : List Nat) : Nat := ds.foldl (fun v d => 10 * v + d) 0

/-- The 12 half-bytes of a label. -/
def labelDigits (l : Label) : List Nat := nibbles l.toNat 12

/-- A zone code as a decimal number; none when a half-byte is not a digit (R23, R28). -/
def zoneValue (z : ZoneCode) : Option Nat :=
  let ds := nibbles z.toNat 6
  if isDecimal ds then some (decimalValue ds) else none

/-- The weights of the check digit, from the leftmost digit (R2). -/
def checkWeights : List Nat := [1, 3, 7, 1, 3, 7, 1, 3, 7, 1, 3]

/-- The check digit of 11 data digits (R2). -/
def checkDigit (ds : List Nat) : Nat :=
  (10 - (List.zipWith (· * ·) ds checkWeights).sum % 10) % 10

/-- The digit check of a scan: 18 decimal half-bytes and the right check digit (R2). -/
def digitsPass (scan : ScanFields) : Bool :=
  isDecimal (labelDigits scan.label) && (zoneValue scan.zone).isSome &&
    (labelDigits scan.label).getD 11 0 == checkDigit ((labelDigits scan.label).take 11)

/-! ## The place and the clamped codes (R1, R3) -/

/-- The place kind of a code; none for a code outside the four (R1). -/
def placeKindOf (code : Byte) : Option PlaceKind :=
  match code.toNat with
  | 0 => some .intake
  | 1 => some .lane
  | 2 => some .load
  | 3 => some .rework
  | _ => none

/-- The valid place numbers of a place kind (the place table of section 1.1). -/
def placeInRange : PlaceKind → Nat → Bool
  | .intake, n => n ≤ 32
  | .lane, n => 1 ≤ n && n ≤ 48
  | .load, n => 1 ≤ n && n ≤ 48
  | .rework, n => n == 0

/-- The clamping of a scan that passed its checks (R3). -/
def clampScan (scan : ScanFields) : ScanFields :=
  { scan with
    type := if scan.type.toNat ≤ 4 then scan.type else 0
    cls := if scan.cls.toNat ≤ 3 then scan.cls else 0
    kg := if scan.kg.toNat ≤ Config.heaviestMeasured then scan.kg
      else BitVec.ofNat 16 Config.heaviestMeasured }

/-- The service class of a code; a code outside 0 to 3 is STANDARD (R3). -/
def classOf (code : Byte) : ServiceClass :=
  match code.toNat with
  | 1 => .priority
  | 2 => .am
  | 3 => .timed
  | _ => .standard

/-- The code of a service class (11.2). -/
def ServiceClass.code : ServiceClass → Nat
  | .standard => 0
  | .priority => 1
  | .am => 2
  | .timed => 3

/-- The type of a code; a code outside 0 to 4 is FULL (R3). -/
def typeOf (code : Byte) : PalletType :=
  match code.toNat with
  | 1 => .light
  | 2 => .half
  | 3 => .quarter
  | 4 => .mini
  | _ => .full

/-- The code of a type (R10). -/
def PalletType.code : PalletType → Nat
  | .full => 0
  | .light => 1
  | .half => 2
  | .quarter => 3
  | .mini => 4

/-- The quarters of a type (R10). -/
def PalletType.quarters : PalletType → Nat
  | .full => 4
  | .light => 4
  | .half => 2
  | .quarter => 1
  | .mini => 1

/-- The type limit of a type in kg (R10). -/
def PalletType.limit : PalletType → Nat
  | .full => 1200
  | .light => 750
  | .half => 500
  | .quarter => 250
  | .mini => 150

/-! ## Ranges of request parameters -/

/-- 1 to 128 (R46). -/
def isTrunkNumber (n : Nat) : Bool := 1 ≤ n && n ≤ 128

/-- 1 to 48 (R52). -/
def isDoorNumber (n : Nat) : Bool := 1 ≤ n && n ≤ 48

/-- 1 to 32 (R100). -/
def isMoverNumber (n : Nat) : Bool := 1 ≤ n && n ≤ 32

/-- 1 to 250 (R23). -/
def isDepot (n : Nat) : Bool := 1 ≤ n && n ≤ 250

/-- An optional number on the wire: 0 is absent where values start at 1 (R174). -/
def optionalNumber (b : Byte) : Option Nat := if b = 0 then none else some b.toNat

/-! ## Conditions (R149) -/

/-- The number of a condition, 1 to 16 (R149). -/
def CondName.number : CondName → Nat
  | .balanceHold => 1
  | .lanePressure => 2
  | .moversShort => 3
  | .tableHigh => 4
  | .unrouted => 5
  | .weight => 6
  | .mislane => 7
  | .misload => 8
  | .flush => 9
  | .trunkClosing => 10
  | .trunkDue => 11
  | .moverSilent => 12
  | .moveOverdue => 13
  | .bankSwitch => 14
  | .duplicate => 15
  | .test => 16

/-- The sixteen conditions in order (R149). -/
def CondName.all : List CondName :=
  [.balanceHold, .lanePressure, .moversShort, .tableHigh, .unrouted, .weight, .mislane, .misload,
    .flush, .trunkClosing, .trunkDue, .moverSilent, .moveOverdue, .bankSwitch, .duplicate, .test]

/-- Conditions 1 to 4 are level conditions (R149). -/
def CondName.isLevel (c : CondName) : Bool := c.number ≤ 4

/-- Whether a condition set names condition `c`: bit n − 1 for condition n (R175). -/
def CondName.isIn (c : CondName) (set : BitVec 16) : Bool := set.getLsbD (c.number - 1)

end Sys2Proof.Machine
end

