-- ==== Sys2Proof/Machine/Ops.lean ====
section
/-! DEFINITION. The named operations over the state's tables, doors, movers, queues and port queues. Every meaning reads and writes through these. -/

namespace Sys2Proof.Machine

/-! ## Tables -/

/-- The record at key `k`. -/
def Table.get? {α : Type} : Table α → Nat → Option α
  | [], _ => none
  | (i, v) :: t, k => if i = k then some v else Table.get? t k

/-- Writes the record at key `k`, keeping the keys rising. -/
def Table.put {α : Type} : Table α → Nat → α → Table α
  | [], k, v => [(k, v)]
  | (i, u) :: t, k, v =>
      if k < i then (k, v) :: (i, u) :: t
      else if i = k then (k, v) :: t
      else (i, u) :: Table.put t k v

/-- Changes the record at key `k`, if there is one. -/
def Table.adjust {α : Type} : Table α → Nat → (α → α) → Table α
  | [], _, _ => []
  | (i, u) :: t, k, f => if i = k then (i, f u) :: t else (i, u) :: Table.adjust t k f

/-- Removes the record at key `k`. -/
def Table.erase {α : Type} : Table α → Nat → Table α
  | [], _ => []
  | (i, u) :: t, k => if i = k then t else (i, u) :: Table.erase t k

/-- Whether the keys rise strictly: the one form in which a table is held. -/
def Table.wf {α : Type} : Table α → Bool
  | [] => true
  | [_] => true
  | (i, _) :: (j, v) :: t => i < j && Table.wf ((j, v) :: t)

/-! ## Numbered vectors: entry `n` of a vector whose numbers start at 1 -/

/-- Entry `n`, counted from 1; `x` for a number the vector does not hold. -/
def nth {α : Type} {k : Nat} (v : Vector α k) (n : Nat) (x : α) : α :=
  if n = 0 then x else v.getD (n - 1) x

/-- Writes entry `n`, counted from 1; no effect for a number the vector does not hold. -/
def setNth {α : Type} {k : Nat} (v : Vector α k) (n : Nat) (x : α) : Vector α k :=
  if n = 0 then v else v.setIfInBounds (n - 1) x

/-! ## Records of the state -/

/-- The pallet record that holds a label (R8). -/
def State.pallet? (s : State) (l : Label) : Option Pallet := s.pallets.get? l.toNat

/-- Changes the record of a label; no effect when there is none. -/
def State.modPallet (s : State) (l : Label) (f : Pallet → Pallet) : State :=
  { s with pallets := s.pallets.adjust l.toNat f }

/-- Makes a pallet record (R12). -/
def State.addPallet (s : State) (p : Pallet) : State :=
  { s with pallets := s.pallets.put p.label.toNat p }

/-- Takes a pallet record out of the table (R148). -/
def State.dropPallet (s : State) (l : Label) : State :=
  { s with pallets := s.pallets.erase l.toNat }

/-- The trunk record of a number (R46). -/
def State.trunk? (s : State) (t : Nat) : Option Trunk := s.trunks.get? t

/-- Changes the record of a trunk; no effect when there is none. -/
def State.modTrunk (s : State) (t : Nat) (f : Trunk → Trunk) : State :=
  { s with trunks := s.trunks.adjust t f }

/-- Makes a trunk record (R47). -/
def State.addTrunk (s : State) (t : Nat) (r : Trunk) : State :=
  { s with trunks := s.trunks.put t r }

/-- Removes a trunk record (R51, R57). -/
def State.dropTrunk (s : State) (t : Nat) : State := { s with trunks := s.trunks.erase t }

/-- The trailer class of a trunk (R43); all zero when its slot is absent. -/
def State.classOf (s : State) (r : Trunk) : TrailerClass := (s.classes.get? r.cls).getD {}

/-- The record of a door (R52). -/
def State.door (s : State) (d : Nat) : Door := nth s.doors d {}

/-- Changes the record of a door. -/
def State.modDoor (s : State) (d : Nat) (f : Door → Door) : State :=
  { s with doors := setNth s.doors d (f (s.door d)) }

/-- The record of a mover (R100). -/
def State.mover (s : State) (m : Nat) : Mover := nth s.movers m {}

/-- Changes the record of a mover. -/
def State.modMover (s : State) (m : Nat) (f : Mover → Mover) : State :=
  { s with movers := setNth s.movers m (f (s.mover m)) }

/-- Move queue `q`, 0 to 48, as the labels of the pallets whose moves stand in it (R103). -/
def State.queue (s : State) (q : Nat) : List Label := s.queues.getD q []

/-- Writes move queue `q`. -/
def State.setQueue (s : State) (q : Nat) (ls : List Label) : State :=
  { s with queues := s.queues.setIfInBounds q ls }

/-- The burst count of queue `q` (R117). -/
def State.burst (s : State) (q : Nat) : Nat := s.bursts.getD q 0

/-- The condition record of a name (R149). -/
def State.condition (s : State) (c : CondName) : Condition := nth s.conditions c.number {}

/-- Changes a condition record. -/
def State.modCondition (s : State) (c : CondName) (f : Condition → Condition) : State :=
  { s with conditions := setNth s.conditions c.number (f (s.condition c)) }

/-- The bank of a number (R22). -/
def State.bank (s : State) : BankNumber → Bank
  | .bank0 => s.bank0
  | .bank1 => s.bank1

/-- The other bank number (R22). -/
def BankNumber.other : BankNumber → BankNumber
  | .bank0 => .bank1
  | .bank1 => .bank0

/-- The standby bank (R22). -/
def State.standby (s : State) : Bank := s.bank s.active.other

/-- Writes the standby bank (R28). -/
def State.setStandby (s : State) (b : Bank) : State :=
  match s.active with
  | .bank0 => { s with bank1 := b }
  | .bank1 => { s with bank0 := b }

/-! ## Trunks and doors, read -/

/-- The close time: the cut-off less the margin, or 0 (R46). Natural subtraction stops at 0. -/
def Trunk.closeTime (r : Trunk) : Nat := r.cutoff - r.margin

/-- The door a trunk is placed at, ACTIVE or NEXT (R52). -/
def Trunk.door? (r : Trunk) : Option Nat :=
  match r.placement with
  | .unplaced => none
  | .next d => some d
  | .active d => some d

/-- The door a trunk is ACTIVE at. -/
def Trunk.activeDoor? (r : Trunk) : Option Nat :=
  match r.placement with
  | .active d => some d
  | _ => none

/-- The door at which trunk `t` is placed, ACTIVE or NEXT. -/
def State.doorOfTrunk (s : State) (t : Nat) : Option Nat := (s.trunk? t).bind Trunk.door?

/-- The loading drop of a trunk (R122): B while a drop-B booking of a two-drop trunk stands
UNRELEASED, otherwise A. -/
def Trunk.loadingDrop (r : Trunk) : Drop :=
  if r.dropB.isSome && r.window.any (fun b => b.drop = .b && b.standing = .unreleased) then .b
  else .a

/-- Whether a deadline is reached: the clock is RUNNING and at or past it (R41). -/
def State.reached (s : State) (deadline : Nat) : Bool :=
  s.clock.running && deadline ≤ s.clock.value

/-! ## Ports (R160, R163, R164) -/

/-- The transmit side of a port. -/
def State.port (s : State) : Port → PortState
  | .floor => s.floor
  | .yard => s.yard

/-- Writes the transmit side of a port. -/
def State.setPort (s : State) (p : Port) (x : PortState) : State :=
  match p with
  | .floor => { s with floor := x }
  | .yard => { s with yard := x }

/-- An idle port begins to transmit: the front own frame, else the front pass-through frame (R164). -/
def PortState.begin (p : PortState) : PortState :=
  match p.sending, p.own, p.pass with
  | some _, _, _ => p
  | none, f :: fs, _ => { p with own := fs, sending := some (.own f) }
  | none, [], b :: bs => { p with pass := bs, sending := some (.pass b) }
  | none, [], [] => p

/-- An own frame as the part builds it now (R163, R165). -/
def State.ownFrame (s : State) (dest : Address) (body : OwnBody) : OwnFrame :=
  { dest := dest, hub := s.hub, unit := s.unit, body := body }

/-- Places an own frame: at the tail of the port's own-frame queue, or dropped when the queue holds
256 (R163). A port that is idle begins to transmit at once (R164; log 11). -/
def State.placeOwn (s : State) (p : Port) (dest : Address) (body : OwnBody) : State :=
  let x := s.port p
  if x.own.length < Config.ownCapacity then
    s.setPort p ({ x with own := x.own ++ [s.ownFrame dest body] }).begin
  else s

/-- Places a forwarded frame: at the tail of the pass-through queue of port `p`, or dropped when the
queue holds 64 (R162). -/
def State.placePass (s : State) (p : Port) (bytes : List Byte) : State :=
  let x := s.port p
  if x.pass.length < Config.passCapacity then
    s.setPort p ({ x with pass := x.pass ++ [bytes] }).begin
  else s

/-- Whether a restart is pending (R173). -/
def State.restartPending (s : State) : Bool := s.restart.isSome

end Sys2Proof.Machine
end

