-- ==== Sys2Proof/Machine/Flags.lean ====
section
/-! DEFINITION. The notice unit's raw values and statuses (chapter 9): raises, level reports, status changes and the notices they send. -/

namespace Sys2Proof.Machine

/-- Sends a notice to one channel: only when the condition's enable for it is on and its address is
present (R154). -/
def State.noticeTo (s : State) (enable : Bool) (channel : Option Address) (n : Notice) : State :=
  match enable, channel with
  | true, some a => s.placeOwn .yard a (.notice n)
  | _, _ => s

/-- Sends the notices of a status that has just been set: channel A before channel B (R154). -/
def State.sendNotices (s : State) (c : CondName) : State :=
  let r := s.condition c
  let n : Notice := { condition := c, subject := r.subject, raw := r.raw, time := s.clock.value }
  (s.noticeTo r.enableA s.channelA n).noticeTo r.enableB s.channelB n

/-- Whether a change of a raw value to `value` sets the status (R153): a rise, or a fall of a level
condition with both-ways on; and an enable or keep-all on. -/
def Condition.setsStatus (r : Condition) (isLevel value keepAll : Bool) : Bool :=
  (value || (isLevel && r.bothWays)) && (r.enableA || r.enableB || keepAll)

/-- A change of a raw value (R153): the raw value is taken; a clear status that the change sets
becomes set with the change's subject, and its notices are sent. -/
def State.changeRaw (s : State) (c : CondName) (value : Bool) (subject : Option Subject) : State :=
  let r := s.condition c
  if r.setsStatus c.isLevel value s.keepAll && !r.status then
    (s.modCondition c fun r =>
      { r with raw := value, status := true, subject := subject }).sendNotices c
  else s.modCondition c fun r => { r with raw := value }

/-- A raise of an edge condition (R150): taken only when the raw value is false. -/
def State.raise (s : State) (c : CondName) (subject : Subject) : State :=
  if (s.condition c).raw then s else s.changeRaw c true (some subject)

/-- A level report (R151): a subject stands for true, none for false; taken only when the value
differs from the stored raw value. -/
def State.report (s : State) (c : CondName) (subject : Option Subject) : State :=
  if (s.condition c).raw = subject.isSome then s else s.changeRaw c subject.isSome subject

/-- The comparison of the count of records in use with the high-water mark (R8, R152). -/
def State.reportCount (s : State) : State :=
  s.report .tableHigh
    (if s.limits.highWater ≤ s.pallets.length then some (.count s.pallets.length) else none)

/-- The doors 1 to 48 in order. -/
def doorNumbers : List Nat := (List.range 48).map (· + 1)

/-- Whether a trunk's held list holds a pallet. -/
def State.hasHeld (s : State) (t : Option Nat) : Bool :=
  match t.bind s.trunk? with
  | some r => !r.held.isEmpty
  | none => false

/-- Whether a door's lane is full while a pallet of its active or next trunk waits (R90). -/
def State.lanePressed (s : State) (d : Nat) : Bool :=
  let x := s.door d
  x.claims == x.slots && (s.hasHeld x.active || s.hasHeld x.next)

/-- The report of LANE_PRESSURE: its subject is the lowest-numbered door that meets the test (R90). -/
def State.reportLanePressure (s : State) : State :=
  s.report .lanePressure ((doorNumbers.find? s.lanePressed).map Subject.door)

/-- The report of BALANCE_HOLD: its subject is the lowest-numbered door with an active trunk and its
hold set (R131). -/
def State.reportBalanceHold (s : State) : State :=
  s.report .balanceHold
    ((doorNumbers.find? fun d => (s.door d).active.isSome && (s.door d).hold).map Subject.door)

/-- The report of MOVERS_SHORT: a queue holds a move while the free list is empty; its subject is
the lowest-numbered such queue (R119). -/
def State.reportMoversShort (s : State) : State :=
  s.report .moversShort
    (if s.freeList.isEmpty then
      ((List.range 49).find? fun q => !(s.queue q).isEmpty).map Subject.queue
    else none)

end Sys2Proof.Machine
end

