-- ==== Sys2Proof/Machine/Movers.lean ====
section
/-! DEFINITION. The move arbiter (chapter 6): moves and their queues, directives, the ways a move leaves or returns, urgency, the choice of queue and the grant attempt. -/

namespace Sys2Proof.Machine

/-! ## Directives and the free list (R101, R107) -/

/-- Sends a directive to a mover's recorded terminal address (R107). -/
def State.sendDirective (s : State) (m : Nat) (d : Directive) : State :=
  match (s.mover m).address with
  | some a => s.placeOwn .floor a (.directive d)
  | none => s

/-- A mover becomes FREE at the tail of the free list; one already in it keeps its place (R101). -/
def State.freeMover (s : State) (m : Nat) : State :=
  let s := s.modMover m fun r => { r with state := .free, move := none }
  if s.freeList.contains m then s else { s with freeList := s.freeList ++ [m] }

/-- A mover leaves the free list, if it is in it, and stands in `state` with no current move. -/
def State.idleMover (s : State) (m : Nat) (state : MoverState) : State :=
  let s := s.modMover m fun r => { r with state := state, move := none }
  { s with freeList := s.freeList.filter (· ≠ m) }

/-! ## Moves (R102 to R106) -/

/-- The live move of a label. -/
def State.move? (s : State) (l : Label) : Option Move := (s.pallet? l).bind Pallet.move

/-- The record that holds the live move of a number (R100). -/
def State.palletOfMove (s : State) (n : Nat) : Option Pallet :=
  (s.pallets.find? fun e => e.2.move.any fun mv => mv.number == n).map Prod.snd

/-- The numbers of the live moves. -/
def State.liveMoves (s : State) : List Nat := s.pallets.filterMap fun e => e.2.move.map Move.number

/-- The number after `n` in the count of move numbers: 1 follows 65 535 (R102). -/
def moveNumberAfter (n : Nat) : Nat := if n < Config.lastMoveNumber then n + 1 else 1

/-- The first number counted onward from `n` that no live move holds (R102). With more tries than
live moves a free number is found. -/
def freeMoveNumber (live : List Nat) : Nat → Nat → Nat
  | 0, n => moveNumberAfter n
  | tries + 1, n =>
      let k := moveNumberAfter n
      if live.contains k then freeMoveNumber live tries k else k

/-- Takes a move's label out of a queue (R103). -/
def State.unqueue (s : State) (q : Nat) (l : Label) : State :=
  s.setQueue q ((s.queue q).filter (· ≠ l))

/-- Makes a move for a label: numbered, QUEUED and at the tail of its queue (R102, R103; log 38). -/
def State.makeMove (s : State) (l : Label) (kind : MoveKind) (source destination : Location)
    (q : Nat) : State :=
  let n := freeMoveNumber s.liveMoves s.pallets.length s.lastMove
  let s := s.modPallet l fun p =>
    { p with
      move := some { number := n, kind := kind, source := source, destination := destination, queue := q } }
  { s.setQueue q (s.queue q ++ [l]) with lastMove := n }

/-- Frees the mover of a move, with a CANCEL when `cancel` holds (R104, R105). -/
def State.freeMoverOf (s : State) (mv : Move) (cancel : Bool) : State :=
  match mv.mover with
  | none => s
  | some m =>
      (if cancel then s.sendDirective m (.cancel m mv.number) else s).freeMover m

/-- Takes the live move off a label: out of its queue when QUEUED, with its mover freed when OFFERED
or ACCEPTED; an OFFERED move is answered by a CANCEL, an ACCEPTED one when `cancelAccepted` holds. -/
def State.takeMove (s : State) (l : Label) (cancelAccepted : Bool) : State :=
  match s.move? l with
  | none => s
  | some mv =>
      let s := s.modPallet l fun p => { p with move := none }
      match mv.state with
      | .queued => s.unqueue mv.queue l
      | .offered => s.freeMoverOf mv true
      | .accepted => s.freeMoverOf mv cancelAccepted

/-- Ends the live move of a label, if it has one (R104). -/
def State.endMove (s : State) (l : Label) : State := s.takeMove l false

/-- Withdraws the live move of a label, if it has one (R105). -/
def State.withdrawMove (s : State) (l : Label) : State := s.takeMove l true

/-- Returns the live move of a label to the front of its queue (R106). -/
def State.returnMove (s : State) (l : Label) : State :=
  match s.move? l with
  | none => s
  | some mv =>
      let s := s.modPallet l fun p =>
        { p with
          move := some { mv with
            state := .queued
            mover := none
            overdue := false
            acceptDeadline := none
            doneDeadline := none } }
      s.setQueue mv.queue (l :: s.queue mv.queue)

/-- Returns the move a mover holds to the front of its queue; the caller gives the mover its state. -/
def State.giveBack (s : State) (m : Nat) : State :=
  match (s.mover m).move.bind s.palletOfMove with
  | none => s
  | some p => s.returnMove p.label

/-- Sends the REDIRECT of a label's ACCEPTED move to its mover (R107). -/
def State.redirect (s : State) (l : Label) (kind : MoveKind) (destination : Location) : State :=
  match s.move? l with
  | some mv =>
      match mv.mover with
      | some m => s.sendDirective m (.redirect m mv.number kind l destination)
      | none => s
  | none => s

/-- A REDIRECT that keeps the move live: the move takes the new kind, destination and queue and keeps
the rest (R73, R80, R107). -/
def State.redirectMove (s : State) (l : Label) (kind : MoveKind) (destination : Location)
    (q : Nat) : State :=
  (s.redirect l kind destination).modPallet l fun p =>
    { p with move := p.move.map fun mv =>
        { mv with kind := kind, destination := destination, queue := q } }

/-- A REDIRECT back to the pallet's own lane or apron: it carries the move's own kind, and the move
ends with no further directive (R73, R75, R107). -/
def State.redirectHome (s : State) (l : Label) (destination : Location) : State :=
  match s.move? l with
  | some mv => (s.redirect l mv.kind destination).endMove l
  | none => s

/-- An entry into EXCEPTION queues a REWORK move from the pallet's location, unless a move is live
(R141). -/
def State.queueRework (s : State) (l : Label) : State :=
  match s.pallet? l with
  | some p => if p.move.isSome then s else s.makeMove l .rework p.location .rework 0
  | none => s

/-- The accept deadline of a mover's offer is reached: the mover becomes SILENT, its move returns to
the front of its queue, MOVER_SILENT is raised (R114). -/
def State.expireOffer (s : State) (m : Nat) : State :=
  ((s.giveBack m).idleMover m .silent).raise .moverSilent (.mover m)

/-- The done deadline of a mover's move is reached: the overdue flag is set, MOVE_OVERDUE is raised,
and the deadline is not armed again (R115). -/
def State.expireMove (s : State) (m : Nat) : State :=
  match (s.mover m).move.bind s.palletOfMove with
  | none => s
  | some p =>
      (s.modPallet p.label fun p =>
        { p with move := p.move.map fun mv =>
            { mv with overdue := true, doneDeadline := none } }).raise .moveOverdue (.label p.label)

/-- A deadline `length` seconds from now, at most 86 399 (R114, R115). -/
def State.deadlineIn (s : State) (length : Nat) : Nat :=
  min (s.clock.value + length) Config.lastSecond

/-- Whether a deadline armed now is reached as it is armed: RUNNING at 86 399 (R41). -/
def State.atLastSecond (s : State) : Bool :=
  s.clock.running && s.clock.value == Config.lastSecond

/-! ## Urgency and the choice of queue (R117, R118) -/

/-- The weight of a booking's pallet in a door's work (the table of R118). -/
def Pallet.work (p : Pallet) : Nat :=
  match p.state with
  | .held => match p.location with
    | .apron _ => 2
    | .lane _ => 1
    | _ => 0
  | .laneBound => match p.move.map Move.kind with
    | some .put => 2
    | some .shift => 1
    | _ => 0
  | .staged => 1
  | .loadBound => 1
  | _ => 0

/-- The work left on a trunk: the weights of its bookings that are not LOADED (R118). -/
def State.work (s : State) (r : Trunk) : Nat :=
  ((r.window.filter fun b => b.standing ≠ .loaded).map fun b =>
    ((s.pallet? b.label).map Pallet.work).getD 0).sum

/-- The slack of a door whose active trunk is `r`, signed (R118). -/
def State.slack (s : State) (r : Trunk) : Int :=
  ((r.cutoff : Int) - s.clock.value) - s.limits.allowance * s.work r

/-- Whether a door is urgent (R118). -/
def State.urgentDoor (s : State) (d : Nat) : Bool :=
  match (s.door d).active.bind s.trunk? with
  | none => false
  | some r => r.phase = .closing || s.slack r < s.limits.threshold

/-- Whether queue `q` holds a move. -/
def State.hasMove (s : State) (q : Nat) : Bool := !(s.queue q).isEmpty

/-- Whether queue `q` is served from URGENT; queue 0 never is (R117). -/
def State.urgentQueue (s : State) (q : Nat) : Bool := q != 0 && s.urgentDoor q

/-- The chosen queue: the first eligible one in URGENT, else in NORMAL (R117). -/
def State.chooseQueue (s : State) : Option Nat :=
  (s.urgent.find? fun q => s.hasMove q && s.urgentQueue q).or
    (s.normal.find? fun q => s.hasMove q && !s.urgentQueue q)

/-- The burst length of queue `q` (R117). -/
def State.burstLength (s : State) (q : Nat) : Nat := if q = 0 then 1 else 2 ^ (s.door q).burst

/-- Moves `q` to the tail of a rotation list (R117). -/
def toTail (q : Nat) (qs : List Nat) : List Nat := qs.filter (· ≠ q) ++ [q]

/-- Counts a grant from queue `q`: at its burst length the queue goes to the tail of both lists with
its count 0 (R117). -/
def State.countBurst (s : State) (q : Nat) : State :=
  let n := s.burst q + 1
  if s.burstLength q ≤ n then
    { s with
      urgent := toTail q s.urgent
      normal := toTail q s.normal
      bursts := s.bursts.setIfInBounds q 0 }
  else { s with bursts := s.bursts.setIfInBounds q n }

/-! ## Grants (R116) -/

/-- The OFFER of a label's move to mover `m` (R107): a LOAD carries the trunk, position and row. -/
def Pallet.offer (p : Pallet) (m : Nat) (mv : Move) : Directive :=
  .offer m mv.number mv.kind p.label mv.source mv.destination
    (if mv.kind = .load then p.trunk else none) (if mv.kind = .load then p.position else none)

/-- Sends the OFFER of a label's move (R107). -/
def State.sendOffer (s : State) (l : Label) (m : Nat) : State :=
  match s.pallet? l with
  | some p =>
      match p.move with
      | some mv => s.sendDirective m (p.offer m mv)
      | none => s
  | none => s

/-- Pairs mover `m`, the head of the free list, with the move of label `l`, the front of queue `q`
(R116), counting the burst and arming the accept deadline; a deadline reached as it is armed is
taken once the OFFER is sent (R114). -/
def State.grant (s : State) (m q : Nat) (l : Label) : State :=
  let s := { s.countBurst q with freeList := s.freeList.filter (· ≠ m) }
  let s := s.setQueue q ((s.queue q).filter (· ≠ l))
  let number := ((s.move? l).map Move.number).getD 0
  let s := s.modPallet l fun p =>
    { p with move := p.move.map fun mv =>
        { mv with
          state := .offered
          mover := some m
          acceptDeadline := some (s.deadlineIn s.limits.acceptTimeout) } }
  let s := s.modMover m fun r => { r with state := .offered, move := some number }
  let s := s.sendOffer l m
  if s.atLastSecond then s.expireOffer m else s

/-- Grants while the free list holds a mover and a queue holds a move, at most `n` times. -/
def State.grants (s : State) : Nat → State
  | 0 => s
  | n + 1 =>
      match s.freeList, s.chooseQueue with
      | m :: _, some q =>
          match s.queue q with
          | l :: _ => (s.grant m q l).grants n
          | [] => s
      | _, _ => s

/-- The grant attempt (R116): each grant takes the head of the free list out of it and none joins,
so the length of the free list bounds the grants. -/
def State.grantAttempt (s : State) : State := s.grants s.freeList.length

end Sys2Proof.Machine
end

