-- ==== Sys2Proof/Machine/Booking.lean ====
section
/-! DEFINITION. Routing and booking (chapters 2 and 4): the lookup of a depot and its row, the candidate tests, the choice, the booking, its withdrawal, and the excluded list. -/

namespace Sys2Proof.Machine

/-! ## The route lookup (R25, R27) -/

/-- Whether a zone entry contains a zone (R23). -/
def ZoneEntry.contains (e : ZoneEntry) (z : Nat) : Bool := e.first ≤ z && z ≤ e.last

/-- The row slot of a class and depot (R24). -/
def rowSlot (cls depot : Nat) : Nat := cls * 256 + depot

/-- The row that serves a class and depot, and whether it is the fallback (R25 steps 2 and 3, R27). -/
def Bank.rowFor (b : Bank) (cls : ServiceClass) (depot : Nat) : Option (List Nat × Bool) :=
  match b.rows.get? (rowSlot cls.code depot) with
  | some row => some (row, false)
  | none =>
      if cls = .standard then none
      else (b.rows.get? (rowSlot 0 depot)).map fun row => (row, true)

/-- The outcomes of the lookup at intake (R14, R25). -/
inductive RouteOutcome where
  | noRoute
  | zoneHeld
  | noTrunk (depot : Nat)
  | found (depot : Nat) (fallback : Bool) (candidates : List Nat)
  deriving DecidableEq, Repr

/-- The lookup at intake: the zone entry that contains the zone, then the rows of its depot (R25). A
zone code that is no number is contained by no entry. -/
def Bank.lookup (b : Bank) (zone : ZoneCode) (cls : ServiceClass) : RouteOutcome :=
  match (zoneValue zone).bind fun z => b.zones.find? (·.contains z) with
  | none => .noRoute
  | some e =>
      if e.hold then .zoneHeld
      else match b.rowFor cls e.depot with
        | none => .noTrunk e.depot
        | some (row, fallback) => .found e.depot fallback row

/-! ## Choosing a trunk (R65, R66) -/

/-- What the tests of R65 find for one candidate. -/
inductive CandidateTest where
  | passes (drop : Drop)
  | noRoom
  | fails
  deriving DecidableEq, Repr

/-- The drop test (test 3 of R65): drop A when the depot is the trunk's near drop; drop B when it is
the far drop and no drop-A booking stands RELEASED or LOADED. -/
def Trunk.dropFor (r : Trunk) (depot : Option Nat) : Option Drop :=
  if depot = some r.dropA then some .a
  else if depot.isSome && depot = r.dropB &&
      !(r.window.any fun b => b.drop = .a && b.standing ≠ .unreleased) then some .b
  else none

/-- The six tests of R65, in order: existence, phase, drop, exclusion, space, weight. -/
def State.testCandidate (s : State) (p : Pallet) (t : Nat) : CandidateTest :=
  match s.trunk? t with
  | none => .fails
  | some r =>
      if r.phase ≠ .opened then .fails
      else match r.dropFor p.depot with
        | none => .fails
        | some drop =>
            if p.excluded.contains t then .fails
            else if 8 * (s.classOf r).rows < r.bookedQuarters + p.quarters then .noRoom
            else if (s.classOf r).payload < r.bookedKg + p.bookingKg then .noRoom
            else .passes drop

/-- A chosen candidate (R66): its trunk, the drop, its place in the list from 1, and whether an
earlier one failed for space or weight. -/
structure Choice where
  trunk : Nat
  drop : Drop
  index : Nat
  spill : Bool
  deriving DecidableEq, Repr

/-- The first candidate that passes, from place `i` on (R66). -/
def State.chooseFrom (s : State) (p : Pallet) : List Nat → Nat → Bool → Option Choice
  | [], _, _ => none
  | t :: ts, i, spill =>
      match s.testCandidate p t with
      | .passes drop => some { trunk := t, drop := drop, index := i, spill := spill }
      | .noRoom => s.chooseFrom p ts (i + 1) true
      | .fails => s.chooseFrom p ts (i + 1) spill

/-- The choice among a candidate list (R66). -/
def State.choose (s : State) (p : Pallet) (candidates : List Nat) : Option Choice :=
  s.chooseFrom p candidates 1 false

/-! ## Windows, held lists and excluded lists (R62 to R64, R68) -/

/-- A booking joins the tail of its drop's segment: every drop-B booking before every drop-A one
(R62). -/
def joinWindow (w : List Booking) (b : Booking) : List Booking :=
  match b.drop with
  | .a => w ++ [b]
  | .b => w.filter (·.drop = .b) ++ [b] ++ w.filter (·.drop = .a)

/-- A booking joins a trunk: its window, and the booked counts that rise by it (R62, R63). -/
def Trunk.join (r : Trunk) (b : Booking) : Trunk :=
  { r with
    window := joinWindow r.window b
    bookedQuarters := r.bookedQuarters + b.quarters
    bookedKg := r.bookedKg + b.kg }

/-- The booking of a label in a window. -/
def Trunk.booking? (r : Trunk) (l : Label) : Option Booking := r.window.find? (·.label = l)

/-- A booking leaves a trunk: its window, the booked counts that fall by it, and the held list
(step 2 of R69, R143). -/
def Trunk.leave (r : Trunk) (l : Label) : Trunk :=
  let b := r.booking? l
  { r with
    window := r.window.filter (·.label ≠ l)
    bookedQuarters := r.bookedQuarters - (b.map Booking.quarters).getD 0
    bookedKg := r.bookedKg - (b.map Booking.kg).getD 0
    held := r.held.filter (· ≠ l) }

/-- Writes the standing of a label's booking (R61). -/
def Trunk.setStanding (r : Trunk) (l : Label) (x : Standing) : Trunk :=
  { r with window := r.window.map fun b => if b.label = l then { b with standing := x } else b }

/-- A trunk joins the tail of an excluded list of at most four; a fifth displaces the oldest (R68). -/
def excludeTrunk (xs : List Nat) (t : Nat) : List Nat :=
  if xs.contains t then xs
  else
    let ys := xs ++ [t]
    if 4 < ys.length then ys.drop 1 else ys

/-- A label leaves the held list of trunk `t` (R64). -/
def State.leaveHeld (s : State) (t : Nat) (l : Label) : State :=
  s.modTrunk t fun r => { r with held := r.held.filter (· ≠ l) }

/-- A label joins the tail of the held list of trunk `t` (R64). -/
def State.joinHeld (s : State) (t : Nat) (l : Label) : State :=
  s.modTrunk t fun r => { r with held := r.held.filter (· ≠ l) ++ [l] }

/-! ## Booking (R61, R67, R76) -/

/-- The booking counter after a booking: 1 follows 4 294 967 295 (R61). -/
def sequenceAfter (n : Nat) : Nat := if n < Config.lastSequence then n + 1 else 1

/-- The booking itself (R67, first part): it joins the window with the next sequence number, the
pallet's trunk and drop are written, SPILL is set or cleared (R66), and the pallet becomes HELD at the
tail of the held list. -/
def State.makeBooking (s : State) (p : Pallet) (c : Choice) : State :=
  let b : Booking :=
    { label := p.label, drop := c.drop, quarters := p.quarters, kg := p.bookingKg
      seq := s.bookingCounter }
  let s := { s with bookingCounter := sequenceAfter s.bookingCounter }
  let s := (s.modTrunk c.trunk (·.join b)).joinHeld c.trunk p.label
  s.modPallet p.label fun p =>
    { p with
      trunk := some c.trunk
      drop := some c.drop
      state := .held
      flags := { p.flags with spill := c.spill } }

/-- Whether a pallet is HELD in the lane of door `d` with its claim at `d` (R76). -/
def Pallet.carriesOver (p : Pallet) (d : Nat) : Bool :=
  p.state = .held && p.location = .lane d && p.claimDoor = some d

/-- The hand-over in the lane: a HELD pallet standing in lane `d` with its claim there, its trunk `t`
placed at `d`, leaves the held list and becomes STAGED (R76). -/
def State.carryOver (s : State) (t d : Nat) (l : Label) : State :=
  match s.pallet? l with
  | some p =>
      if p.carriesOver d then
        (s.leaveHeld t l).modPallet l fun p => { p with state := .staged }
      else s
  | none => s

/-- A pallet enters EXCEPTION with a reason (R140); its REWORK move is queued by the caller, after
every other effect of the entry (R141). -/
def State.enterException (s : State) (l : Label) (reason : Reason) : State :=
  s.modPallet l fun p => { p with state := .exception, reason := some reason }

/-! ## Claims (R84, R89) -/

/-- A pallet takes a claim at door `d` (R84). -/
def State.takeClaim (s : State) (l : Label) (d : Nat) : State :=
  (s.modDoor d fun x => { x with claims := x.claims + 1 }).modPallet l fun p =>
    { p with claimDoor := some d }

/-- The claim door of a label. -/
def State.claimOf (s : State) (l : Label) : Option Nat := (s.pallet? l).bind Pallet.claimDoor

/-- A pallet's claim is released: the door's count falls, the claim door becomes absent and MISLANED
is cleared (R89). The grant pass it calls for is the caller's. -/
def State.releaseClaim (s : State) (l : Label) : State :=
  match s.claimOf l with
  | none => s
  | some d =>
      (s.modDoor d fun x => { x with claims := x.claims - 1 }).modPallet l fun p =>
        { p with claimDoor := none, flags := { p.flags with mislaned := false } }

/-! ## Freeing a record (R148) -/

/-- A pallet record is freed: a live move is withdrawn, a claim is released, the record leaves the
table and the new count is reported (R148, R8). -/
def State.freeRecord (s : State) (l : Label) : State :=
  (((s.withdrawMove l).releaseClaim l).dropPallet l).reportCount

end Sys2Proof.Machine
end

