-- ==== Sys2Proof/Machine/Lanes.lean ====
section
/-! DEFINITION. The grant pass of the lane allocator (chapter 5): carry-over, pass 1 and pass 2, and the grant of one claim. -/

namespace Sys2Proof.Machine

/-- What a pass leaves to hand on (R88): whether it made a pallet of the active trunk STAGED with a
claim, and the other doors at which it released claims. -/
structure PassResult where
  state : State
  staged : Bool := false
  doors : List Nat := []

/-- Whether the claim count of door `d` is below its lane slots: the test of pass 1 (R86). -/
def State.roomForLoading (s : State) (d : Nat) : Bool := (s.door d).claims < (s.door d).slots

/-- Whether the lane slots less the claim count are above the reserve: the test of pass 2 (R86). -/
def State.roomAboveReserve (s : State) (d : Nat) : Bool :=
  (s.door d).reserve < (s.door d).slots - (s.door d).claims

/-- The grant of a claim at door `d` to a pallet (R87). Its second part says whether the pallet now
stands STAGED with its claim; the third names the door whose claim it gave up (R77). -/
def State.grantClaim (s : State) (l : Label) (d : Nat) : State × Bool × Option Nat :=
  match s.pallet? l with
  | none => (s, false, none)
  | some p =>
      if p.state = .staged then (s.takeClaim l d, true, none)
      else
        let s := match p.trunk with
          | some t => s.leaveHeld t l
          | none => s
        let old := p.claimDoor
        let s := (s.releaseClaim l).takeClaim l d
        if p.move.any (·.state = .accepted) then
          (s.modPallet l fun p => { p with state := .laneBound }, false, old)
        else if p.location = .lane d then
          (s.modPallet l fun p => { p with state := .staged }, true, old)
        else
          let kind : MoveKind := match p.location with
            | .lane _ => .shift
            | _ => .put
          ((s.modPallet l fun p => { p with state := .laneBound }).makeMove l kind p.location
            (.lane d) d, false, old)

/-- Offers claims in order to a list of waiting pallets while the test allows; the pass ends at the
first refusal, which the last part reports (R86). `active` is the door's active trunk, whose pallets
that become STAGED request a release attempt. -/
def grantList (d : Nat) (active : Option Nat) (test : State → Nat → Bool) :
    List Label → PassResult → PassResult × Bool
  | [], r => (r, true)
  | l :: ls, r =>
      if test r.state d then
        let (s, staged, old) := r.state.grantClaim l d
        let mine := active.isSome && (s.pallet? l).bind Pallet.trunk = active
        grantList d active test ls
          { state := s
            staged := r.staged || (staged && mine)
            doors := r.doors ++ old.toList }
      else (r, false)

/-- The STAGED pallets of a trunk that hold no claim, in window order, of the drops `wanted`. -/
def State.stagedWaiting (s : State) (r : Trunk) (wanted : Drop → Bool) : List Label :=
  (r.window.filter fun b => wanted b.drop &&
    (s.pallet? b.label).any fun p => p.state = .staged && p.claimDoor = none).map Booking.label

/-- The HELD pallets of a trunk in held-list order, of the drops `wanted`. -/
def State.heldWaiting (s : State) (r : Trunk) (wanted : Drop → Bool) : List Label :=
  r.held.filter fun l => (s.pallet? l).any fun p => p.state = .held && p.drop.any wanted

/-- The pallets of trunk `t` that wait for a claim, of the drops `wanted` (R86): first the STAGED
ones, then the HELD ones. -/
def State.waiting (s : State) (t : Option Nat) (wanted : Drop → Bool) : List Label :=
  match t.bind s.trunk? with
  | none => []
  | some r => s.stagedWaiting r wanted ++ s.heldWaiting r wanted

/-- Step 1 of a pass for one trunk: its HELD pallets standing in the lane with their claim there
become STAGED (R86). -/
def State.carryOverAll (s : State) (t : Option Nat) (d : Nat) : State :=
  match t with
  | none => s
  | some t => match s.trunk? t with
    | none => s
    | some r => r.held.foldl (fun s l => s.carryOver t d l) s

/-- Whether step 1 has a pallet of trunk `t` to carry over. -/
def State.hasCarryOver (s : State) (t : Option Nat) (d : Nat) : Bool :=
  match t.bind s.trunk? with
  | none => false
  | some r => r.held.any fun l => (s.pallet? l).any (·.carriesOver d)

/-- The active trunk that a pass at door `d` serves: none when it is in phase DUE (R86). -/
def State.passTrunk (s : State) (d : Nat) : Option Nat :=
  (s.door d).active.filter fun t => (s.trunk? t).any fun r => r.phase ≠ .due

/-- A grant pass at door `d`: carry-over, then pass 1 for the active trunk's loading drop, then
pass 2 for its other drop and the next trunk (R86). The loading drop is read at the start. -/
def State.grantPass (s : State) (d : Nat) : PassResult :=
  let x := s.door d
  let serving := s.passTrunk d
  let drop := ((serving.bind s.trunk?).map Trunk.loadingDrop).getD .a
  let carried := s.hasCarryOver x.active d
  let s := (s.carryOverAll x.active d).carryOverAll x.next d
  let (r, goOn) := grantList d x.active State.roomForLoading (s.waiting serving (· = drop))
    { state := s, staged := carried }
  if goOn then
    (grantList d x.active State.roomAboveReserve
      (s.waiting serving (· ≠ drop) ++ s.waiting x.next fun _ => true) r).1
  else r

/-- The single test of an unplanned arrival or of a redirected pallet for a claim at door `d` (R93,
R73): a pallet of the active trunk's loading drop by the test of pass 1, any other by that of
pass 2. -/
def State.claimTest (s : State) (p : Pallet) (d : Nat) : Bool :=
  match (s.door d).active.bind s.trunk? with
  | some r =>
      if p.trunk = (s.door d).active && p.drop = some r.loadingDrop then s.roomForLoading d
      else s.roomAboveReserve d
  | none => s.roomAboveReserve d

end Sys2Proof.Machine
end

