-- ==== Sys2Proof/Machine/Loading.lean ====
section
/-! DEFINITION. The planned load of a trailer (chapter 7): the fit test, the balance test, the update of the placement state, and a release. -/

namespace Sys2Proof.Machine

/-- What the fit test finds (R126): a stack on the open position, a new position, or no fit. -/
inductive Fit where
  | stack (p : Nat)
  | fresh (p : Nat)
  | none
  deriving DecidableEq, Repr

/-- The target position of a fit. -/
def Fit.target? : Fit → Option Nat
  | .stack p => some p
  | .fresh p => some p
  | .none => Option.none

/-- The index after the open position, or 0 when none has been opened (R126). -/
def Trunk.nextPosition (r : Trunk) : Nat :=
  match r.openPosition with
  | some p => p + 1
  | none => 0

/-- The fit test of a candidate of `q` quarters and `w` kg in a trailer of `rows` rows (R126). -/
def Trunk.fit (r : Trunk) (rows q w : Nat) : Fit :=
  let fresh := if r.nextPosition < 2 * rows then Fit.fresh r.nextPosition else Fit.none
  match r.openPosition with
  | some p => if 0 < r.fill && r.fill + q ≤ 4 && w ≤ r.topWeight then .stack p else fresh
  | none => fresh

/-- The distance of the row of position `p` behind the kingpin, in half-centimetres (R127). -/
def TrailerClass.rowDistance (c : TrailerClass) (p : Nat) : Nat :=
  2 * c.front + (2 * (p / 2) + 1) * c.pitch

/-- The loads that the balance test projects (R127). -/
structure Projection where
  weight : Nat
  moment : Nat
  axle : Nat
  kingpin : Int
  deriving DecidableEq, Repr

/-- The projection for a candidate of `w` kg at position `p` (R127): the axle share rounded up, the
kingpin's subtraction rounded down. -/
def Trunk.project (r : Trunk) (c : TrailerClass) (w p : Nat) : Projection :=
  let weight := r.plannedWeight + w
  let moment := r.plannedMoment + w * c.rowDistance p
  { weight := weight
    moment := moment
    axle := c.axleTare + (moment + (2 * c.axle - 1)) / (2 * c.axle)
    kingpin := ((c.kingpinTare + weight : Nat) : Int) - (moment / (2 * c.axle) : Nat) }

/-- Whether projected loads are within the class's limits (R127). -/
def Projection.passes (x : Projection) (c : TrailerClass) : Bool :=
  x.axle ≤ c.axleLimit && x.kingpin ≤ (c.kingpinLimit : Int)

/-- The placement state after a pallet of `q` quarters and `w` kg takes a fit (R128 steps 2 and 3,
R136). -/
def Trunk.place (r : Trunk) (f : Fit) (x : Projection) (q w : Nat) : Trunk :=
  match f with
  | .stack _ =>
      { r with
        plannedWeight := x.weight, plannedMoment := x.moment
        fill := r.fill + q, topWeight := w }
  | .fresh p =>
      { r with
        plannedWeight := x.weight, plannedMoment := x.moment
        openPosition := some p, fill := q, topWeight := w }
  | .none => r

/-- A release of booking `b` of trunk `t` at door `d`, position `p`: the six steps of R128. -/
def State.releaseBooking (s : State) (t d : Nat) (b : Booking) (f : Fit) (p : Nat)
    (x : Projection) : State :=
  let s := s.modTrunk t fun r =>
    let r := (r.setStanding b.label .released).place f x b.quarters b.kg
    { r with inFlight := r.inFlight + 1 }
  let s := s.modPallet b.label fun q => { q with state := .loadBound, position := some p }
  let s := s.modDoor d fun y => { y with hold := false }
  s.makeMove b.label .load (.lane d) (.trailer t) d

end Sys2Proof.Machine
end

