-- ==== Sys2Proof/Machine/Replies.lean ====
section
/-! DEFINITION. The management unit's frames in progress (section 10.3): which request is due, the result a request is given, the room its record has, and the reply. -/

namespace Sys2Proof.Machine

/-- The size of a record in bytes (R175's table). -/
def Record.size : Record → Nat
  | .pallet _ => 52
  | .verdict _ => 34
  | .zone _ _ _ => 12
  | .row _ _ => 7
  | .clock _ _ => 5
  | .trailerClass _ => 19
  | .trunk t => 42 + 16 * ((t.map fun x => x.entries.length).getD 0)
  | .door _ => 11
  | .mover _ => 20
  | .release _ => 16
  | .notices _ => 207
  | .settings _ => 25

/-- The bytes a frame's records take in its reply, each with its 3-byte prefix (R175). -/
def MgmtFrame.recordBytes (f : MgmtFrame) : Nat := (f.records.map fun x => x.2.size + 3).sum

/-- The frame in progress whose turn it is (R167). -/
def State.dueFrame (s : State) : Option MgmtFrame := s.frames[s.turn]?

/-- Whether a request command is the one the management unit takes next: the first element left of
the frame whose turn it is decodes to it (R167; log 1). -/
def State.isDue (s : State) (c : Instr) : Bool :=
  match s.dueFrame with
  | some f =>
      match f.left with
      | e :: _ => decodeRequest e.1 e.2 = c
      | [] => false
  | none => false

/-- Whether a record of `n` bytes fits the due frame's reply (R168). A request that no frame carries
has no reply to fit. -/
def State.recordFits (s : State) (due : Bool) (n : Nat) : Bool :=
  match due, s.dueFrame with
  | true, some f => f.recordBytes + n + 3 ≤ Config.replyRecordBytes
  | _, _ => true

/-- A frame's first request left is given its result and record; a refusal with stop-on-refusal set
gives every later request NOT_RUN (R167). -/
def MgmtFrame.give (f : MgmtFrame) (r : Result) (record : Option Record) : MgmtFrame :=
  let f :=
    { f with
      results := f.results ++ [r]
      records := f.records ++ (record.map fun x => (f.results.length + 1, x)).toList
      left := f.left.drop 1 }
  if r ≠ .done && f.stop then
    { f with results := f.results ++ List.replicate f.left.length .notRun, left := [] }
  else f

/-- The rest of a frame's requests are given NOT_RUN: a RESTART ends its frame's list (R173). -/
def MgmtFrame.endList (f : MgmtFrame) : MgmtFrame :=
  { f with results := f.results ++ List.replicate f.left.length .notRun, left := [] }

/-- The reply of a frame (R168). -/
def MgmtFrame.reply (f : MgmtFrame) : Reply :=
  { tag := f.tag, status := .done, results := f.results, records := f.records }

/-- The turn after a request of frame `turn` of `n` frames that goes on: the frame that follows in
the order of arrival, or the earliest one (R167; log 18). -/
def turnAfter (turn n : Nat) : Nat := if turn + 1 < n then turn + 1 else 0

/-- The frame whose turn it is stops being in progress; the turn passes to the frame that followed it
(R167, R168). -/
def State.dropDueFrame (s : State) : State :=
  let fs := s.frames.eraseIdx s.turn
  { s with frames := fs, turn := if s.turn < fs.length then s.turn else 0 }

/-- A request is given its result and record. For the due request this is accounted to its frame, and
the last result places the reply on YARD (R168); in any case it is what `answer` shows. -/
def State.giveResult (s : State) (due : Bool) (r : Result) (record : Option Record) : State :=
  let s := { s with answer := some { result := r, record := record } }
  match due, s.dueFrame with
  | true, some f =>
      let f := f.give r record
      if f.left.isEmpty then
        s.dropDueFrame.placeOwn .yard f.source (.reply f.reply)
      else
        { s with frames := s.frames.set s.turn f, turn := turnAfter s.turn s.frames.length }
  | _, _ => s

/-- A RESTART is given DONE (R173): its frame's list ends, the reply is built, and the restart is
pending. The reply is the next frame YARD begins to transmit: at once when the port is idle. A
RESTART that no frame carries has no reply (log 25). -/
def State.giveRestart (s : State) (due : Bool) (kind : RestartKind) : State :=
  let s := { s with answer := some { result := .done, record := none } }
  match due, s.dueFrame with
  | true, some f =>
      let f := (f.give .done none).endList
      let x := s.ownFrame f.source (.reply f.reply)
      let s := s.dropDueFrame
      if s.yard.sending.isNone then
        { s with
          yard := { s.yard with sending := some (.own x) }
          restart := some { kind := kind, reply := none, begun := true } }
      else { s with restart := some { kind := kind, reply := some x, begun := false } }
  | _, _ => { s with restart := some { kind := kind, reply := none, begun := false } }

end Sys2Proof.Machine
end

