-- ==== Sys2Proof/Machine/Event.lean ====
section
/-! DEFINITION. One event: the agenda of work that the rules give an event, each item of it, and the loop that takes items from the front until none is left. An item that the rules make whole within another stands before the rest of that other. -/

namespace Sys2Proof.Machine

/-! ## Work -/

/-- The causes of a flush (R70). -/
inductive Cause where
  | cutOff | departed | cancelled | trailerFull | misload
  deriving DecidableEq, Repr

/-- A walk of a window in progress (R125): the bookings taken so far by sequence number, whether it
is FORCE_RELEASE's, the loading drop at its start, and what R130 asks at its end. -/
structure Walk where
  trunk : Nat
  door : Nat
  forced : Bool
  start : Drop
  visited : List Nat := []
  met : Bool := false
  released : Bool := false
  holdChanged : Bool := false
  deriving DecidableEq, Repr

/-- An item of work. -/
inductive Work where
  /-- A grant pass at a door (R86); `served` names the trunk whose release attempt follows anyway. -/
  | pass (d : Nat) (served : Option Nat)
  /-- A release attempt for a trunk (R124), its walk (R125), and what follows when it is complete. -/
  | attempt (t : Nat)
  | walk (w : Walk)
  | attemptDone (t : Nat)
  /-- A flush of a booking (R69), the REDIRECT of R73 after its rebooking, and its step 6 (R81). -/
  | flush (t : Nat) (l : Label) (cause : Cause)
  | redirectForks (l : Label)
  | flushEnd (t : Nat) (doors : List Nat) (before : Drop) (cause : Cause) (attempt : Bool)
  /-- The flushes of a window, front first, that a cause reaches (R70), and the end of R49. -/
  | flushBookings (t : Nat) (cause : Cause)
  | dueEnd (t : Nat) (flushed : Bool)
  /-- A report of the clock to the trunk table and to the move arbiter (R41), and the deadlines of
  trunks and of movers that the clock has reached, in this order. -/
  | trunkReport
  | moverReport
  | trunkDeadlines (ts : List Nat)
  | moverDeadlines (ms : List Nat)
  /-- The later steps of DEPART and DROP_TRUNK (R51, R56, R57). -/
  | leaveDoor (t : Nat)
  | freeLoaded (t : Nat)
  | removeTrunk (t : Nat)
  /-- The reports and the grant attempt that close an event (R90, R116, R119). -/
  | lanePressure
  | balanceHold
  | grantAttempt
  | moversShort
  /-- The verdict of a scan (R21), and the result of a request (R168). -/
  | verdict (src : Address) (kind : Byte) (scan : ScanFields) (result : VerdictResult)
  | answer (due : Bool)
  | answerRelease (due : Bool)
  deriving DecidableEq, Repr

/-- An event in progress: the state, the work left, and what the event remembers. -/
structure Ev where
  s : State
  work : List Work := []
  /-- The scanned label, and the verdict fields its handling has given (R19). -/
  scanned : Option Label := none
  candidate : Nat := 0
  position : Option Nat := none
  kingpin : Int := 0
  axle : Nat := 0
  /-- The release report of FORCE_RELEASE (R132). -/
  forced : Option ReleaseReport := none
  /-- The trunks with a release attempt running, and those asked for one more meanwhile (R124). -/
  running : List Nat := []
  again : List Nat := []
  /-- The door whose passes and attempts DEPART or DROP_TRUNK leaves to the hand-over (R51, R57), and
  whether an attempt there was asked for meanwhile (log 9). -/
  deferDoor : Option Nat := none
  deferredAttempt : Bool := false

/-- Puts work before the work that is left. -/
def Ev.push (e : Ev) (ws : List Work) : Ev := { e with work := ws ++ e.work }

/-- The work that closes an event which may have changed claims, queues or the free list: the report
of LANE_PRESSURE, the grant attempt, the report of MOVERS_SHORT (R90, R116, R119; log 7). -/
def closing : List Work := [.lanePressure, .grantAttempt, .moversShort]

/-! ## Grant passes and release attempts -/

/-- A grant pass and what it hands on (R88): the release attempt, when it made a pallet of the active
trunk STAGED; the passes at the doors whose claims it released, in the order of the grants that released
them (DESIGN CHOICE, log 42); the report of LANE_PRESSURE. A pass at the deferred door is the
hand-over's. An attempt that `served` names follows anyway and serves the pass's own request (R124;
log 34); the other hand-ons, which R88 puts after the attempt, are run before that one, an order that
R134, R135 and R143 leave open (DESIGN CHOICE, log 50). Inside a flush the rebooking's pass hands on at
once too: its passes at other doors do not wait for step 6, which R85 says of a pass requested during a
flush and R81 does not list (DESIGN CHOICE, log 49). -/
def Ev.pass (e : Ev) (d : Nat) (served : Option Nat) : Ev :=
  if e.deferDoor = some d then e
  else
    let r := e.s.grantPass d
    let attempt := match (r.state.door d).active with
      | some t => if r.staged && served ≠ some t then [Work.attempt t] else []
      | none => []
    ({ e with s := r.state }).push
      (attempt ++ r.doors.map (fun d => Work.pass d none) ++ [Work.lanePressure])

/-- A release attempt as it begins (R124). One asked for while it runs is made once more after it; one
at the deferred door is the hand-over's. -/
def Ev.attempt (e : Ev) (t : Nat) : Ev :=
  if e.running.contains t then
    { e with again := if e.again.contains t then e.again else e.again ++ [t] }
  else match e.s.trunk? t with
    | none => e
    | some r =>
        match r.activeDoor? with
        | none => e
        | some d =>
            if e.deferDoor = some d then { e with deferredAttempt := true }
            else if r.phase ≠ .due && r.inFlight < (e.s.door d).depth then
              ({ e with running := e.running ++ [t] }).push
                [.walk { trunk := t, door := d, forced := false, start := r.loadingDrop }]
            else e

/-- The end of an attempt, hand-ons included: one further attempt if it was asked for (R124). -/
def Ev.attemptDone (e : Ev) (t : Nat) : Ev :=
  let e' := { e with running := e.running.filter (· ≠ t), again := e.again.filter (· ≠ t) }
  if e.again.contains t then e'.push [.attempt t] else e'

/-- The next booking of a walk: the first one after the last booking taken that is still in the
window (R125; log 10). -/
def Trunk.nextBooking (r : Trunk) (visited : List Nat) : Option Booking :=
  (r.window.reverse.takeWhile fun b => !visited.contains b.seq).getLast?

/-- Whether a booking is a candidate at door `d` (R125). -/
def State.isCandidate (s : State) (r : Trunk) (d : Nat) (b : Booking) : Bool :=
  b.standing = .unreleased && b.drop = r.loadingDrop &&
    (s.pallet? b.label).any fun p => p.state = .staged && p.claimDoor = some d

/-- The end of a walk: the balance hold, its report, a change of loading drop (R130). -/
def Ev.endWalk (e : Ev) (w : Walk) : Ev :=
  let r := e.s.trunk? w.trunk
  let sets := w.met && !w.released && (r.any fun r => r.inFlight = 0)
  let changed := w.holdChanged || (sets && !(e.s.door w.door).hold)
  let s := if sets then e.s.modDoor w.door fun x => { x with hold := true } else e.s
  let dropChanged := r.any fun r => r.loadingDrop ≠ w.start
  ({ e with s := s }).push
    ((if changed then [Work.balanceHold] else []) ++
      (if dropChanged then [Work.pass w.door none] else []) ++ [Work.attemptDone w.trunk])

/-- A release inside a walk: the steps of R128; the loads are reported for the scanned pallet, and
FORCE_RELEASE sets FORCED and reports them (R19, R132; log 20). -/
def Ev.release (e : Ev) (w : Walk) (b : Booking) (f : Fit) (p : Nat) (x : Projection) : Ev :=
  let s := e.s.releaseBooking w.trunk w.door b f p x
  let e := if e.scanned = some b.label then
      { e with position := some p, kingpin := x.kingpin, axle := x.axle }
    else e
  if w.forced then
    { e with
      s := s.modPallet b.label fun q => { q with flags := { q.flags with forced := true } }
      forced := some { label := b.label, position := p, kingpin := x.kingpin, axle := x.axle } }
  else { e with s := s }

/-- One booking of a walk (R125 to R129). -/
def Ev.walk (e : Ev) (w : Walk) : Ev :=
  match e.s.trunk? w.trunk with
  | none => e.endWalk w
  | some r =>
      if (e.s.door w.door).depth ≤ r.inFlight then e.endWalk w
      else match r.nextBooking w.visited with
        | none => e.endWalk w
        | some b =>
            let w := { w with visited := w.visited ++ [b.seq] }
            if e.s.isCandidate r w.door b then
              let c := e.s.classOf r
              let f := r.fit c.rows b.quarters b.kg
              match f.target? with
              | none => e.push [.flush w.trunk b.label .trailerFull, .walk w]
              | some p =>
                  let x := r.project c b.kg p
                  let w' := { w with
                    released := true, holdChanged := w.holdChanged || (e.s.door w.door).hold }
                  if w.forced then (e.release w b f p x).endWalk w'
                  else if x.passes c then (e.release w b f p x).push [.walk w']
                  else e.push [.walk { w with met := true }]
            else e.push [.walk w]

/-! ## Booking and flushing -/

/-- A booking in an event (R67): the booking, the carry-over of R76 at once, then the grant pass at the
trunk's door and, where a pallet of an ACTIVE trunk became STAGED or its loading drop went from A to B,
one release attempt. The attempt for a pallet carried over comes after the pass, with that of a change
of loading drop, which R67 places last; R67, R76 and R123 do not place it (DESIGN CHOICE, log 47). At
the deferred door the pass and the attempt are the hand-over's. The candidate index goes to the verdict
when the booking is the scanned pallet's own (R66; DEDUCED, log 20). -/
def Ev.book (e : Ev) (p : Pallet) (c : Choice) : Ev × List Work :=
  let before := (e.s.trunk? c.trunk).map Trunk.loadingDrop
  let s := e.s.makeBooking p c
  let e := { e with candidate := if e.scanned = some p.label then c.index else e.candidate }
  match (s.trunk? c.trunk).bind Trunk.door? with
  | none => ({ e with s := s }, [])
  | some d =>
      let staged := (s.pallet? p.label).any (·.carriesOver d)
      let s := s.carryOver c.trunk d p.label
      let r := s.trunk? c.trunk
      let attempt := (r.bind Trunk.activeDoor?).isSome &&
        (staged || r.map Trunk.loadingDrop ≠ before)
      if e.deferDoor = some d then
        ({ e with s := s, deferredAttempt := e.deferredAttempt || attempt }, [])
      else if attempt then ({ e with s := s }, [.pass d (some c.trunk), .attempt c.trunk])
      else ({ e with s := s }, [.pass d none])

/-- What step 1 of a flush leaves (R69): the state, the doors whose claims it released, whether the
pallet is on a mover's forks, and whether a release was withdrawn. -/
structure Treated where
  state : State
  doors : List Nat := []
  forks : Bool := false
  withdrawn : Bool := false

/-- The trunk's in-flight count falls by one when a label's booking is RELEASED (R75, R78, R143). -/
def State.withdrawRelease (s : State) (t : Nat) (l : Label) : State :=
  s.modTrunk t fun r =>
    if (r.booking? l).any (·.standing = .released) then { r with inFlight := r.inFlight - 1 } else r

/-- Whether a label's booking on trunk `t` is RELEASED. -/
def State.isReleased (s : State) (t : Nat) (l : Label) : Bool :=
  (s.trunk? t).any fun r => (r.booking? l).any (·.standing = .released)

/-- Step 1 of a flush of cause MISLOAD (R78): the move ends, the claim is released, a release is
withdrawn. -/
def State.treatMisload (s : State) (t : Nat) (p : Pallet) : Treated :=
  { state := ((s.endMove p.label).releaseClaim p.label).withdrawRelease t p.label
    doors := p.claimDoor.toList
    withdrawn := s.isReleased t p.label }

/-- Step 1 of a flush by the pallet's state (R71 to R75). -/
def State.treat (s : State) (t : Nat) (p : Pallet) : Treated :=
  let accepted := p.move.any (·.state = .accepted)
  match p.state with
  | .laneBound =>
      if accepted then
        { state := s.releaseClaim p.label, doors := p.claimDoor.toList, forks := true }
      else
        { state := (s.withdrawMove p.label).releaseClaim p.label, doors := p.claimDoor.toList }
  | .loadBound =>
      let u := s.withdrawRelease t p.label
      let u := if accepted then u.redirectHome p.label ((p.move.map Move.source).getD p.location)
        else u.withdrawMove p.label
      if p.flags.mislaned then
        { state := u.releaseClaim p.label, doors := p.claimDoor.toList, withdrawn := true }
      else { state := u, withdrawn := true }
  | _ => { state := s }

/-- Steps 2 to 4 of a flush (R69): the booking leaves, the trunk joins the excluded list, FLUSH is
raised. -/
def State.withdrawBooking (s : State) (t : Nat) (l : Label) : State :=
  (s.modTrunk t (·.leave l)).modPallet l fun p =>
    { p with trunk := none, drop := none, position := none }

/-- A failed rebooking (R80): EXCEPTION with REBOOK_FAILED, UNROUTED, the claim released, and the move
on a mover's forks redirected to the rework area or a REWORK move queued. -/
def State.rebookFailed (s : State) (l : Label) (forks : Bool) : State :=
  let s := ((s.enterException l .rebookFailed).raise .unrouted (.label l)).releaseClaim l
  if forks then s.redirectMove l .rework .rework 0 else s.queueRework l

/-- The row that a rebooking reads, and FALLBACK as it leaves it (R27). -/
def State.rebookRow (s : State) (p : Pallet) : List Nat × Bool :=
  match p.depot.bind fun d => (s.bank s.active).rowFor p.cls d with
  | some (row, fallback) => (row, fallback)
  | none => ([], p.flags.fallback)

/-- Step 5 of a flush (R79): the rebooking. A pallet on a mover's forks whose door's passes are left
to a hand-over is tested alone for a claim there (R73). -/
def Ev.rebook (e : Ev) (l : Label) (forks : Bool) (doors : List Nat) :
    Ev × List Work × List Nat :=
  let row := match e.s.pallet? l with
    | some p => e.s.rebookRow p
    | none => ([], false)
  let s := e.s.modPallet l fun p => { p with flags := { p.flags with fallback := row.2 } }
  match s.pallet? l with
  | none => (e, [], doors)
  | some p =>
      match s.choose p row.1 with
      | none => ({ e with s := s.rebookFailed l forks }, [], (doors ++ p.claimDoor.toList).dedup)
      | some c =>
          let (e, works) := ({ e with s := s }).book p c
          match (e.s.trunk? c.trunk).bind Trunk.door? with
          | none => (e, works, doors)
          | some d =>
              if e.deferDoor = some d then
                match e.s.pallet? l with
                | some p =>
                    if forks && e.s.claimTest p d then
                      ({ e with s := (e.s.grantClaim l d).1 }, works, doors)
                    else (e, works, doors)
                | none => (e, works, doors)
              else (e, works, doors.filter (· ≠ d))

/-- A flush of label `l`'s booking on trunk `t` (R69): steps 1 to 5, then what R73 completes and
step 6. The rebooking's pass and its hand-ons come before both (log 49). A booking whose pallet has no
record only leaves the window. -/
def Ev.flush (e : Ev) (t : Nat) (l : Label) (cause : Cause) : Ev :=
  match e.s.pallet? l with
  | none => { e with s := e.s.modTrunk t (·.leave l) }
  | some p =>
      let before := ((e.s.trunk? t).map Trunk.loadingDrop).getD .a
      let x := if cause = .misload then e.s.treatMisload t p else e.s.treat t p
      let s := x.state.withdrawBooking t l
      let s := s.modPallet l fun p => { p with excluded := excludeTrunk p.excluded t }
      let e := { e with s := s.raise .flush (.trunk t) }
      if cause = .misload then e.push [.flushEnd t x.doors before cause x.withdrawn]
      else
        let (e, works, doors) := e.rebook l x.forks x.doors
        e.push (works ++ (if x.forks then [Work.redirectForks l] else []) ++
          [.flushEnd t doors before cause x.withdrawn])

/-- The completion of R73 for a pallet still on a mover's forks after its rebooking: a REDIRECT to the
lane it now holds a claim at, or to its intake apron, where its move ends. A failed rebooking has sent
its own. -/
def Ev.redirectForks (e : Ev) (l : Label) : Ev :=
  match e.s.pallet? l with
  | none => e
  | some p =>
      if p.trunk.isNone then e
      else match p.claimDoor with
        | some d => { e with s := e.s.redirectMove l .put (.lane d) d }
        | none =>
            { e with s := (e.s.redirectHome l (.apron p.intakeDoor)).modPallet l fun p =>
                { p with location := .apron p.intakeDoor } }

/-- Grant passes at several doors, each once; a pass at the active door of trunk `t` leaves the
attempt to the one that follows when `follows` holds (logs 34 and 50). -/
def passesAt (doors : List Nat) (t : Nat) (follows : Bool) : List Work :=
  doors.dedup.map fun d => Work.pass d (if follows then some t else none)

/-- Step 6 of a flush (R81): the passes owed to doors, the pass and the attempt of a change of
loading drop, and the attempt of a withdrawn release (log 8). Inside an attempt of the same trunk
(TRAILER_FULL) the change is that attempt's. -/
def Ev.flushEnd (e : Ev) (t : Nat) (doors : List Nat) (before : Drop) (cause : Cause)
    (attempt : Bool) : Ev :=
  let r := e.s.trunk? t
  let at? := r.bind Trunk.activeDoor?
  let changed := cause ≠ .trailerFull && at?.isSome && (r.any fun r => r.loadingDrop ≠ before)
  let wants := attempt || changed
  e.push (passesAt (doors ++ if changed then at?.toList else []) t wants ++
    if wants then [.attempt t] else [])

/-- Whether a cause reaches a standing (R70). -/
def Cause.reaches : Cause → Standing → Bool
  | .cutOff, .unreleased => true
  | .cutOff, _ => false
  | _, .loaded => false
  | _, _ => true

/-- The flushes of a window, one at a time from its front (R49, R51, R57). The window is read again for
each, so that a booking that has joined it meanwhile is flushed too: DESIGN CHOICE, log 41. -/
def Ev.flushBookings (e : Ev) (t : Nat) (cause : Cause) : Ev :=
  match (e.s.trunk? t).bind fun r => r.window.find? fun b => cause.reaches b.standing with
  | none => e
  | some b => e.push [.flush t b.label cause, .flushBookings t cause]

/-! ## Deadlines (R48, R49, R114, R115) -/

/-- The close time of a trunk is reached (R48). -/
def State.enterClosing (s : State) (t : Nat) : State :=
  (s.modTrunk t fun r => { r with phase := .closing }).raise .trunkClosing (.trunk t)

/-- The cut-off of a trunk is reached (R49): its close time first if it was OPEN, then the phase, the
flushes in window order, and TRUNK_DUE. -/
def Ev.enterDue (e : Ev) (t : Nat) : Ev :=
  match e.s.trunk? t with
  | none => e
  | some r =>
      let s := if r.phase = .opened then e.s.enterClosing t else e.s
      let flushed := r.window.any fun b => b.standing = .unreleased
      ({ e with s := s.modTrunk t fun r => { r with phase := .due } }).push
        [.flushBookings t .cutOff, .dueEnd t flushed]

/-- Step 3 of R49: TRUNK_DUE when something was flushed or is RELEASED. -/
def Ev.dueEnd (e : Ev) (t : Nat) (flushed : Bool) : Ev :=
  if flushed || (e.s.trunk? t).any fun r => r.window.any fun b => b.standing = .released then
    { e with s := e.s.raise .trunkDue (.trunk t) }
  else e

/-- Whether the close time of a trunk is armed and reached (R48). -/
def State.closeReached (s : State) (t : Nat) : Bool :=
  (s.trunk? t).any fun r => r.phase = .opened && s.reached r.closeTime

/-- Whether the cut-off of a trunk is armed and reached (R49). -/
def State.cutoffReached (s : State) (t : Nat) : Bool :=
  (s.trunk? t).any fun r => r.phase ≠ .due && s.reached r.cutoff

/-- The deadlines of a trunk that the clock has reached are taken: the close time before the cut-off
(R41, R47, R50). -/
def Ev.trunkDeadline (e : Ev) (t : Nat) : Ev :=
  if e.s.cutoffReached t then e.enterDue t
  else if e.s.closeReached t then { e with s := e.s.enterClosing t }
  else e

/-- Whether the accept deadline of the move that mover `m` is OFFERED is reached (R114). -/
def State.acceptReached (s : State) (m : Nat) : Bool :=
  (s.mover m).state = .offered &&
    ((s.mover m).move.bind s.palletOfMove).any fun p =>
      p.move.any fun mv => mv.acceptDeadline.any s.reached

/-- Whether the done deadline of the move that mover `m` is BUSY with is reached (R115). -/
def State.doneReached (s : State) (m : Nat) : Bool :=
  (s.mover m).state = .busy &&
    ((s.mover m).move.bind s.palletOfMove).any fun p =>
      p.move.any fun mv => mv.doneDeadline.any s.reached

/-- The deadline of a mover that the clock has reached is taken. -/
def State.moverDeadline (s : State) (m : Nat) : State :=
  if s.acceptReached m then s.expireOffer m
  else if s.doneReached m then s.expireMove m
  else s

/-- The trunk numbers 1 to 128 in order. -/
def trunkNumbers : List Nat := (List.range 128).map (· + 1)

/-- The mover numbers 1 to 32 in order. -/
def moverNumbers : List Nat := (List.range 32).map (· + 1)

/-- A report of the clock to the trunk table (R41): every reached deadline of the block in one event,
by ascending trunk number. It closes like any other event when a cut-off is among them; close times
alone change nothing that a closing reads (R48). -/
def Ev.trunkReport (e : Ev) : Ev :=
  e.push (.trunkDeadlines trunkNumbers ::
    if trunkNumbers.any e.s.cutoffReached then closing else [])

/-- A report of the clock to the move arbiter (R41): every reached deadline of the block in one event,
by ascending mover number. It makes one grant attempt, after all its other work, when an accept deadline
is among them (R116). -/
def Ev.moverReport (e : Ev) : Ev :=
  e.push (.moverDeadlines moverNumbers ::
    if moverNumbers.any e.s.acceptReached then closing else [])

/-! ## Departures (R51, R56, R57) -/

/-- The tables after the hand-over of door `d` from trunk `t` (R56): the hold is cleared, the next trunk
becomes active. -/
def State.handOver (s : State) (t d : Nat) : State :=
  let next := (s.door d).next
  let s := s.modTrunk t fun r => { r with placement := .unplaced }
  let s := s.modDoor d fun x =>
    { x with active := next, next := none, nextPending := false, hold := false }
  match next with
  | some u => s.modTrunk u fun r => { r with placement := .active d }
  | none => s

/-- The hand-over in an event (R56): the hold's report (log 36), then the pass and the attempt for the
trunk that is now active, which serve what the departure left to them. -/
def Ev.handOver (e : Ev) (t d : Nat) : Ev :=
  let works := match (e.s.door d).next with
    | some u => [Work.pass d (some u), .attempt u]
    | none => [Work.pass d none]
  ({ e with
    s := (e.s.handOver t d).reportBalanceHold
    deferDoor := none
    deferredAttempt := false }).push works

/-- The tables after a door's next trunk is dropped (step 2 of R51). -/
def State.unplaceNext (s : State) (t d : Nat) : State :=
  (s.modTrunk t fun r => { r with placement := .unplaced }).modDoor d fun x =>
    { x with next := none, nextPending := false }

/-- DROP_TRUNK of a door's next trunk (step 2 of R51): the pass at the door, and the attempt for its
active trunk that the flushes of step 1 left to it (log 9). -/
def Ev.unplaceNext (e : Ev) (t d : Nat) : Ev :=
  let works := match (e.s.door d).active with
    | some a => if e.deferredAttempt then [Work.pass d (some a), .attempt a] else [.pass d none]
    | none => [.pass d none]
  ({ e with s := e.s.unplaceNext t d, deferDoor := none, deferredAttempt := false }).push works

/-- A trunk leaves the door it is placed at (step 2 of R51, step 3 of R57). -/
def Ev.leaveDoor (e : Ev) (t : Nat) : Ev :=
  match (e.s.trunk? t).map Trunk.placement with
  | some (.active d) => e.handOver t d
  | some (.next d) => e.unplaceNext t d
  | _ => e

/-- The record of a trunk that has left its door is removed (step 3 of R51, step 4 of R57). -/
def State.removeTrunk (s : State) (t : Nat) : State :=
  match (s.trunk? t).map Trunk.placement with
  | some .unplaced => s.dropTrunk t
  | _ => s

/-- The labels a departure frees (step 2 of R57): the LOADED bookings' pallets in window order, then
the MISLOADED pallets in the trailer. -/
def State.inTrailer (s : State) (t : Nat) : List Label :=
  ((s.trunk? t).map fun r =>
    (r.window.filter fun b => b.standing = .loaded).map Booking.label).getD [] ++
  (s.pallets.filter fun e => e.2.state = .misloaded && e.2.location = .trailer t).map fun e => e.2.label

/-! ## Verdicts (R19, R21) -/

/-- The verdict of a scan from the record as it stands (R19): the claim door, else the door at which
the trunk is placed. -/
def State.verdictOf (s : State) (kind : Byte) (scan : ScanFields) (result : VerdictResult) :
    Verdict :=
  match s.pallet? scan.label with
  | none => { echoKind := kind, echo := scan, result := result }
  | some p =>
      { echoKind := kind
        echo := scan
        result := result
        state := some p.state
        trunk := p.trunk
        drop := p.drop
        door := p.claimDoor.or (p.trunk.bind s.doorOfTrunk)
        flags := p.flags }

/-- Sends a verdict: to the reader on FLOOR, then the copy on YARD (R21). -/
def State.sendVerdict (s : State) (src : Address) (v : Verdict) : State :=
  (s.placeOwn .floor src (.verdict v)).placeOwn .yard s.verdictAddress (.verdict v)

/-- The verdict at the end of a scan's handling (R19, R21). -/
def Ev.verdict (e : Ev) (src : Address) (kind : Byte) (scan : ScanFields)
    (result : VerdictResult) : Ev :=
  let v := { e.s.verdictOf kind scan result with
    candidate := e.candidate, position := e.position, kingpin := e.kingpin, axle := e.axle }
  { e with s := e.s.sendVerdict src v }

/-! ## The loop -/

/-- Takes one item of work. -/
def Ev.perform (e : Ev) : Work → Ev
  | .pass d served => e.pass d served
  | .attempt t => e.attempt t
  | .walk w => e.walk w
  | .attemptDone t => e.attemptDone t
  | .flush t l cause => e.flush t l cause
  | .redirectForks l => e.redirectForks l
  | .flushEnd t doors before cause attempt => e.flushEnd t doors before cause attempt
  | .flushBookings t cause => e.flushBookings t cause
  | .dueEnd t flushed => e.dueEnd t flushed
  | .trunkReport => e.trunkReport
  | .moverReport => e.moverReport
  | .trunkDeadlines [] => e
  | .trunkDeadlines (t :: ts) => (e.push [.trunkDeadlines ts]).trunkDeadline t
  | .moverDeadlines ms => { e with s := ms.foldl State.moverDeadline e.s }
  | .leaveDoor t => e.leaveDoor t
  | .freeLoaded t => { e with s := (e.s.inTrailer t).foldl State.freeRecord e.s }
  | .removeTrunk t => { e with s := e.s.removeTrunk t }
  | .lanePressure => { e with s := e.s.reportLanePressure }
  | .balanceHold => { e with s := e.s.reportBalanceHold }
  | .grantAttempt => { e with s := e.s.grantAttempt }
  | .moversShort => { e with s := e.s.reportMoversShort }
  | .verdict src kind scan result => e.verdict src kind scan result
  | .answer due => { e with s := e.s.giveResult due .done none }
  | .answerRelease due => { e with s := e.s.giveResult due .done (some (.release e.forced)) }

/-- Takes work from the front until none is left; none when `n` items do not suffice. -/
def drain : Nat → Ev → Option State
  | n, e =>
    match e.work with
    | [] => some e.s
    | w :: ws =>
        match n with
        | 0 => none
        | n + 1 => drain n (({ e with work := ws }).perform w)

/-- An event, whole (95_what_each_step_holds.md). The bound is no rule of the spec: log 15. -/
def runEvent (e : Ev) : Host.Outcome State Fault Refusal :=
  match drain Config.eventBound e with
  | some s => .next s
  | none => .fault .eventUnfinished

end Sys2Proof.Machine
end

