-- ==== Sys2Proof/Machine/Requests.lean ====
section
/-! DEFINITION. How a request is taken (R167, R168): its owning rule's outcome, the room its record has, and its result. -/

namespace Sys2Proof.Machine

/-- What the owning rule of a request finds. -/
inductive Taken where
  /-- Refused: nothing changes (R167). -/
  | refused (r : Result)
  /-- DONE at once, with the state after it and the record it returns. -/
  | done (s : State) (record : Option Record)
  /-- DONE by an event with work to do. -/
  | event (e : Ev)
  /-- DONE by an event that returns a release report (R132). -/
  | release (e : Ev)

/-- Takes a request (R167, R168). While a restart is pending no request is taken (R173). A record that
does not fit the reply makes the request BAD_REQUEST with no other effect, so the room for a release
report is tested before its walk (log 26). -/
def takeRequest (c : Instr) (rule : State → Taken) (s : State) : Host.Outcome State Fault Refusal :=
  if s.restartPending then .next s
  else
    let due := s.isDue c
    match rule s with
    | .refused r => .next (s.giveResult due r none)
    | .done s' record =>
        if s.recordFits due ((record.map Record.size).getD 0) || record.isNone then
          .next (s'.giveResult due .done record)
        else .next (s.giveResult due .badRequest none)
    | .event e => runEvent { e with work := e.work ++ [.answer due] }
    | .release e =>
        if s.recordFits due (Record.release none).size then
          runEvent { e with work := e.work ++ [.answerRelease due] }
        else .next (s.giveResult due .badRequest none)

end Sys2Proof.Machine
end

