-- ==== Sys2Proof/Machine/Clock.lean ====
section
/-! DEFINITION. The shift clock (section 3.1): its advance, START_SHIFT, STOP_SHIFT, READ_CLOCK, and the deadlines that its reports reach. -/

namespace Sys2Proof.Machine

/-! ## Deadlines (R41, R48, R49, R114, R115) -/

/-- Whether a trunk has a deadline that the clock has reached. -/
def State.trunkReached (s : State) (t : Nat) : Bool := s.closeReached t || s.cutoffReached t

/-- Whether a mover's move has a deadline that the clock has reached. -/
def State.moverReached (s : State) (m : Nat) : Bool := s.acceptReached m || s.doneReached m

/-- Whether a report of the clock waits to be taken by a block: a deadline that the clock has reached
is not yet taken (R41; log 3). -/
def State.reportOwed (s : State) : Bool :=
  trunkNumbers.any s.trunkReached || moverNumbers.any s.moverReached

/-- The reports that are owed, each an event with its own closing (log 6), in no stated order (R41).
Only when both blocks are owed one does the order matter; it is a free value (log 4). -/
def State.clockReports (s : State) : State × List Work :=
  match trunkNumbers.any s.trunkReached, moverNumbers.any s.moverReached with
  | false, false => (s, [])
  | true, false => (s, [.trunkReport])
  | false, true => (s, [.moverReport])
  | true, true =>
      ({ s with freeCount := s.freeCount + 1 },
        if Config.trunkReportFirst s.freeCount then [.trunkReport, .moverReport]
        else [.moverReport, .trunkReport])

/-- Takes the reports that are owed. -/
def State.takeReports (s : State) : Host.Outcome State Fault Refusal :=
  runEvent { s := s.clockReports.1, work := s.clockReports.2 }

/-- ACCEPT_TIMEOUT (R114): the clock's report to the move arbiter, when the mover's deadline is one of
those it reaches (R41; log 2). A deadline that is not reached changes nothing (log 23). -/
def execAcceptTimeout (mover : Byte) (s : State) : Host.Outcome State Fault Refusal :=
  if s.acceptReached mover.toNat then runEvent { s := s, work := [.moverReport] } else .next s

/-- DONE_TIMEOUT (R115): the clock's report to the move arbiter (R41; logs 2 and 23). -/
def execDoneTimeout (mover : Byte) (s : State) : Host.Outcome State Fault Refusal :=
  if s.doneReached mover.toNat then runEvent { s := s, work := [.moverReport] } else .next s

/-- CLOSE_TIME_REACHED (R48): the clock's report to the trunk table (R41; logs 2 and 23). -/
def execCloseTimeReached (trunk : Byte) (s : State) : Host.Outcome State Fault Refusal :=
  if s.closeReached trunk.toNat then runEvent { s := s, work := [.trunkReport] } else .next s

/-- CUTOFF_REACHED (R49): the clock's report to the trunk table (R41; logs 2 and 23). -/
def execCutoffReached (trunk : Byte) (s : State) : Host.Outcome State Fault Refusal :=
  if s.cutoffReached trunk.toNat then runEvent { s := s, work := [.trunkReport] } else .next s

/-! ## The clock (R38 to R42) -/

/-- One advance of a RUNNING clock, which stays at its last second (R38). A STOPPED clock does not
advance. -/
def Clock.advance (c : Clock) : Clock :=
  if c.running then
    { c with value := if c.value < Config.lastSecond then c.value + 1 else c.value, periods := 0 }
  else c

/-- One period of the reference input (R38): the last period of a second is an advance. -/
def Clock.period (c : Clock) : Clock :=
  if c.running then
    if c.periods + 1 < Config.periodsPerSecond then { c with periods := c.periods + 1 }
    else c.advance
  else c

/-- CLOCK_ADVANCE (R38). Reports still owed for the value the clock leaves are taken first: every
advance's report is taken before the next advance (R41; log 3). The deadlines that the new value
reaches are taken by its own reports, which the deadline commands, the next advance or an idle step
take. -/
def execClockAdvance (s : State) : Host.Outcome State Fault Refusal :=
  if s.reportOwed then
    match s.takeReports with
    | .next t => .next { t with clock := t.clock.advance }
    | o => o
  else .next { s with clock := s.clock.advance }

/-- What happens while no command waits: the reports that are owed are taken (R41; log 3), and then the
periods of the reference input pass (R38; log 5). -/
def State.idle (s : State) : Host.Outcome State Fault Refusal :=
  if s.reportOwed then s.takeReports else .next { s with clock := s.clock.period }

/-- The rule of START_SHIFT (R39): the clock is set, and the reports of R41 are part of its event. -/
def startShift (time : Nat) (s : State) : Taken :=
  if Config.lastSecond < time then .refused .outOfRange
  else if s.clock.running then .refused .wrongState
  else
    let (s, work) :=
      State.clockReports { s with clock := { value := time, running := true, periods := 0 } }
    .event { s := s, work := work }

/-- START_SHIFT (R39). -/
def execStartShift (time : BitVec 32) (s : State) : Host.Outcome State Fault Refusal :=
  takeRequest (.startShift time) (startShift time.toNat) s

/-- STOP_SHIFT (R40). -/
def execStopShift (s : State) : Host.Outcome State Fault Refusal :=
  takeRequest .stopShift
    (fun s => .done { s with clock := { s.clock with running := false, periods := 0 } } none) s

/-- READ_CLOCK (R42). -/
def execReadClock (s : State) : Host.Outcome State Fault Refusal :=
  takeRequest .readClock (fun s => .done s (some (.clock s.clock.running s.clock.value))) s

end Sys2Proof.Machine
end

