-- ==== Sys2Proof/Machine/Doors.lean ====
section
/-! DEFINITION. The requests that name a door, a mover or a pallet: SET_DOOR, FORCE_RELEASE, REMOVE_PALLET, and the reads of the three. -/

namespace Sys2Proof.Machine

/-! ## Doors (R58, R60) -/

/-- The first test of SET_DOOR: every range, and a reserve below the slots of a door in use (R58). -/
def doorInRange (d slots reserve depth burst : Nat) : Bool :=
  isDoorNumber d && slots ≤ 24 && reserve ≤ 23 && (1 ≤ depth && depth ≤ 4) && burst ≤ 4 &&
    (slots == 0 || reserve < slots)

/-- A door with new settings (R58). -/
def Door.withSettings (x : Door) (slots reserve depth burst : Nat) : Door :=
  { x with slots := slots, reserve := reserve, depth := depth, burst := burst }

/-- The rule of SET_DOOR (R58): a changed setting runs a grant pass. -/
def setDoor (d slots reserve depth burst : Nat) (s : State) : Taken :=
  let x := s.door d
  if !doorInRange d slots reserve depth burst then .refused .outOfRange
  else if slots < x.claims || (slots == 0 && (x.active.isSome || x.next.isSome)) then
    .refused .inUse
  else if x.withSettings slots reserve depth burst = x then .done s none
  else .event
    { s := s.modDoor d (·.withSettings slots reserve depth burst), work := .pass d none :: closing }

/-- The rule of READ_DOOR (R60). -/
def readDoor (d : Nat) (s : State) : Taken :=
  if !isDoorNumber d then .refused .outOfRange
  else
    let x := s.door d
    .done s (some (.door
      { slots := x.slots, reserve := x.reserve, depth := x.depth, burst := x.burst
        active := x.active, next := x.next, nextPending := x.nextPending, claims := x.claims
        hold := x.hold, queueLength := (s.queue d).length }))

/-! ## Movers (R120) -/

/-- A mover's place in the free list, from 1 at the head, or 0 (R120). -/
def State.freePlace (s : State) (m : Nat) : Nat :=
  if s.freeList.contains m then s.freeList.idxOf m + 1 else 0

/-- The rule of READ_MOVER (R120). -/
def readMover (m : Nat) (s : State) : Taken :=
  if !isMoverNumber m then .refused .outOfRange
  else
    let r := s.mover m
    .done s (some (.mover
      { state := r.state, address := r.address, move := r.move
        label := (r.move.bind s.palletOfMove).map Pallet.label
        place := s.freePlace m
        freeLength := s.freeList.length
        queue0Length := (s.queue 0).length }))

/-! ## FORCE_RELEASE (R132) -/

/-- The rule of FORCE_RELEASE (R132): the walk of the active trunk, made as its release attempt. -/
def forceRelease (d : Nat) (s : State) : Taken :=
  if !isDoorNumber d then .refused .outOfRange
  else match (s.door d).active with
    | none => .refused .wrongState
    | some t =>
        match s.trunk? t with
        | none => .refused .wrongState
        | some r =>
            if r.phase = .due then .refused .wrongState
            else if (s.door d).depth ≤ r.inFlight then .refused .wrongState
            else .release
              { s := s
                running := [t]
                work := .walk { trunk := t, door := d, forced := true, start := r.loadingDrop } ::
                  closing }

/-! ## Pallets (R9, R147) -/

/-- The rule of READ_PALLET (R9). -/
def readPallet (l : Label) (s : State) : Taken :=
  if !isDecimal (labelDigits l) then .refused .outOfRange
  else .done s (some (.pallet (s.pallet? l)))

/-- The rule of REMOVE_PALLET (R147). -/
def removePallet (l : Label) (s : State) : Taken :=
  if !isDecimal (labelDigits l) then .refused .outOfRange
  else match s.pallet? l with
    | none => .refused .noSuch
    | some p =>
        if p.state = .exception || p.state = .atRework then
          .event { s := s.freeRecord l, work := closing }
        else .refused .wrongState

/-! ## The commands -/

/-- SET_DOOR (R58). -/
def execSetDoor (door slots reserve depth burst : Byte) (s : State) :
    Host.Outcome State Fault Refusal :=
  takeRequest (.setDoor door slots reserve depth burst)
    (setDoor door.toNat slots.toNat reserve.toNat depth.toNat burst.toNat) s

/-- READ_DOOR (R60). -/
def execReadDoor (door : Byte) (s : State) : Host.Outcome State Fault Refusal :=
  takeRequest (.readDoor door) (readDoor door.toNat) s

/-- READ_MOVER (R120). -/
def execReadMover (mover : Byte) (s : State) : Host.Outcome State Fault Refusal :=
  takeRequest (.readMover mover) (readMover mover.toNat) s

/-- FORCE_RELEASE (R132). -/
def execForceRelease (door : Byte) (s : State) : Host.Outcome State Fault Refusal :=
  takeRequest (.forceRelease door) (forceRelease door.toNat) s

/-- READ_PALLET (R9). -/
def execReadPallet (label : Label) (s : State) : Host.Outcome State Fault Refusal :=
  takeRequest (.readPallet label) (readPallet label) s

/-- REMOVE_PALLET (R147). -/
def execRemovePallet (label : Label) (s : State) : Host.Outcome State Fault Refusal :=
  takeRequest (.removePallet label) (removePallet label) s

end Sys2Proof.Machine
end

