-- ==== Sys2Proof/Machine/Management.lean ====
section
/-! DEFINITION. The requests of the management unit (sections 10.3 to 10.5): SET_LIMITS, SET_OUTPUTS, READ_SETTINGS, RESTART, and an element that is no request. -/

namespace Sys2Proof.Machine

/-- Whether the six limits are within the ranges of R170. -/
def Limits.inRange (x : Limits) : Bool :=
  (1 ≤ x.repeatWindow && x.repeatWindow ≤ 60) && (5 ≤ x.acceptTimeout && x.acceptTimeout ≤ 120) &&
    (60 ≤ x.doneTimeout && x.doneTimeout ≤ 1800) && (10 ≤ x.allowance && x.allowance ≤ 300) &&
    x.threshold ≤ 3600 && (256 ≤ x.highWater && x.highWater ≤ 4096)

/-- The rule of SET_LIMITS (R170): the new high-water mark is compared with the count (R152). -/
def setLimits (x : Limits) (s : State) : Taken :=
  if !x.inRange then .refused .outOfRange
  else .done (State.reportCount { s with limits := x }) none

/-- The rule of READ_SETTINGS (R172). -/
def readSettings (s : State) : Taken :=
  .done s (some (.settings
    { limits := s.limits, verdictAddress := s.verdictAddress, hub := s.hub, unit := s.unit
      frames := s.frames.length }))

/-- A RESTART is taken (R173): a kind code that is neither kind is refused. -/
def takeRestart (c : Instr) (kindOk : Bool) (kind : RestartKind) (s : State) :
    Host.Outcome State Fault Refusal :=
  if s.restartPending then .next s
  else if kindOk then .next (s.giveRestart (s.isDue c) kind)
  else .next (s.giveResult (s.isDue c) .outOfRange none)

/-- BAD_REQUEST_CODE (R167, R175): the element has no effect. -/
def execBadRequestCode (code : Byte) (params : List Byte) (s : State) :
    Host.Outcome State Fault Refusal :=
  takeRequest (.badRequestCode code params) (fun _ => .refused .badRequest) s

/-- SET_LIMITS (R170). -/
def execSetLimits (repeatWindow acceptTimeout : Byte)
    (doneTimeout allowance threshold highWater : BitVec 16) (s : State) :
    Host.Outcome State Fault Refusal :=
  takeRequest
    (.setLimits repeatWindow acceptTimeout doneTimeout allowance threshold highWater)
    (setLimits
      { repeatWindow := repeatWindow.toNat, acceptTimeout := acceptTimeout.toNat
        doneTimeout := doneTimeout.toNat, allowance := allowance.toNat
        threshold := threshold.toNat, highWater := highWater.toNat }) s

/-- SET_OUTPUTS (R171). -/
def execSetOutputs (address : Address) (s : State) : Host.Outcome State Fault Refusal :=
  takeRequest (.setOutputs address) (fun s => .done { s with verdictAddress := address } none) s

/-- READ_SETTINGS (R172). -/
def execReadSettings (s : State) : Host.Outcome State Fault Refusal :=
  takeRequest .readSettings readSettings s

/-- RESTART of kind FULL, and of a kind byte that is neither kind (R173; log 21). -/
def execRestartFull (kind : Byte) (s : State) : Host.Outcome State Fault Refusal :=
  takeRestart (.restartFull kind) (kind = 0) .full s

/-- RESTART of kind FLOOR (R173). -/
def execRestartFloor (s : State) : Host.Outcome State Fault Refusal :=
  takeRestart .restartFloor true .floor s

end Sys2Proof.Machine
end

