-- ==== Sys2Proof/Machine/Notices.lean ====
section
/-! DEFINITION. The requests of the notice unit (section 9.5): CLEAR_NOTICE, TEST_NOTICE, SET_NOTICE, SET_CHANNEL and READ_NOTICES. -/

namespace Sys2Proof.Machine

/-- A condition after CLEAR_NOTICE names it: status and subject gone, and the raw value of an edge
condition false (R155). -/
def Condition.clear (r : Condition) (isLevel : Bool) : Condition :=
  { r with raw := isLevel && r.raw, status := false, subject := none }

/-- Changes the conditions of a set. -/
def State.modConditions (s : State) (set : BitVec 16) (f : CondName → Condition → Condition) :
    State :=
  CondName.all.foldl (fun s c => if c.isIn set then s.modCondition c (f c) else s) s

/-- The rule of CLEAR_NOTICE (R155). -/
def clearNotice (set : BitVec 16) (s : State) : Taken :=
  .done (s.modConditions set fun c r => r.clear c.isLevel) none

/-- The rule of TEST_NOTICE (R156). -/
def testNotice (value : BitVec 16) (s : State) : Taken :=
  .done (s.raise .test (.test value.toNat)) none

/-- A condition that SET_NOTICE names: its enables, and the both-ways setting of a level condition
(R157). -/
def Condition.configure (r : Condition) (isLevel enableA enableB bothWays : Bool) : Condition :=
  { r with
    enableA := enableA
    enableB := enableB
    bothWays := if isLevel then bothWays else r.bothWays }

/-- The rule of SET_NOTICE (R157). -/
def setNotice (set : BitVec 16) (enableA enableB bothWays keepAll : Byte) (s : State) : Taken :=
  if 1 < enableA.toNat || 1 < enableB.toNat || 1 < bothWays.toNat || 2 < keepAll.toNat then
    .refused .outOfRange
  else
    let s := s.modConditions set fun c r =>
      r.configure c.isLevel (enableA = 1) (enableB = 1) (bothWays = 1)
    .done { s with keepAll := if keepAll = 2 then s.keepAll else keepAll = 1 } none

/-- The rule of SET_CHANNEL (R158): channel 0 is A and 1 is B; presence 1 is present and 0 is absent
(log 22). -/
def setChannel (channel presence : Byte) (address : Address) (s : State) : Taken :=
  if 1 < channel.toNat || 1 < presence.toNat then .refused .outOfRange
  else
    let a := if presence = 1 then some address else none
    .done (if channel = 0 then { s with channelA := a } else { s with channelB := a }) none

/-- The rule of READ_NOTICES (R159). -/
def readNotices (s : State) : Taken :=
  .done s (some (.notices
    { conditions := s.conditions.toList, keepAll := s.keepAll
      channelA := s.channelA, channelB := s.channelB }))

/-- CLEAR_NOTICE (R155). -/
def execClearNotice (set : BitVec 16) (s : State) : Host.Outcome State Fault Refusal :=
  takeRequest (.clearNotice set) (clearNotice set) s

/-- TEST_NOTICE (R156). -/
def execTestNotice (value : BitVec 16) (s : State) : Host.Outcome State Fault Refusal :=
  takeRequest (.testNotice value) (testNotice value) s

/-- SET_NOTICE (R157). -/
def execSetNotice (set : BitVec 16) (enableA enableB bothWays keepAll : Byte) (s : State) :
    Host.Outcome State Fault Refusal :=
  takeRequest (.setNotice set enableA enableB bothWays keepAll)
    (setNotice set enableA enableB bothWays keepAll) s

/-- SET_CHANNEL (R158). -/
def execSetChannel (channel presence : Byte) (address : Address) (s : State) :
    Host.Outcome State Fault Refusal :=
  takeRequest (.setChannel channel presence address) (setChannel channel presence address) s

/-- READ_NOTICES (R159). -/
def execReadNotices (s : State) : Host.Outcome State Fault Refusal :=
  takeRequest .readNotices readNotices s

end Sys2Proof.Machine
end

