-- ==== Sys2Proof/Machine/Ports.lean ====
section
/-! DEFINITION. The ports and the resets (sections 10.1, 10.2, 10.3 and 10.5): forwarding, the end of a transmission, management frames, the pin reset and the restarts. -/

namespace Sys2Proof.Machine

/-! ## Resets (R173 and the chapters it gathers) -/

/-- A door after RESTART FLOOR: its settings kept (R52). -/
def Door.floorReset (x : Door) : Door :=
  { slots := x.slots, reserve := x.reserve, depth := x.depth, burst := x.burst }

/-- A condition after RESTART FLOOR: its settings kept (R149). -/
def Condition.floorReset (c : Condition) : Condition :=
  { enableA := c.enableA, enableB := c.enableB, bothWays := c.bothWays }

/-- The values after a pin reset with the straps as sampled (R165, R173). The waiting commands and the
draws of free values are the model's own and are kept. -/
def State.pinReset (s : State) (hub : Byte) (unit : BitVec 4) : State :=
  { State.reset with hub := hub, unit := unit, pending := s.pending, freeCount := s.freeCount }

/-- The values after RESTART FULL (R173): those of a pin reset, but a frame that FLOOR is transmitting
goes on (log 31). -/
def State.fullRestart (s : State) (hub : Byte) (unit : BitVec 4) : State :=
  { s.pinReset hub unit with floor := { sending := s.floor.sending } }

/-- The values after RESTART FLOOR (R173). -/
def State.floorRestart (s : State) : State :=
  { s.fullRestart s.hub s.unit with
    bank0 := s.bank0
    bank1 := s.bank1
    active := s.active
    classes := s.classes
    doors := s.doors.map Door.floorReset
    conditions := s.conditions.map Condition.floorReset
    keepAll := s.keepAll
    channelA := s.channelA
    channelB := s.channelB
    limits := s.limits
    verdictAddress := s.verdictAddress }

/-- A pending restart is taken (R173). -/
def State.executeRestart (s : State) (kind : RestartKind) (hub : Byte) (unit : BitVec 4) : State :=
  match kind with
  | .full => s.fullRestart hub unit
  | .floor => s.floorRestart

/-- PIN_RESET (R173): taken at any moment; a frame in transmission is cut off (R160). -/
def execPinReset (hub : Byte) (unit : BitVec 4) (s : State) : Host.Outcome State Fault Refusal :=
  .next (s.pinReset hub unit)

/-! ## Frames on the ports -/

/-- The other port. -/
def portOther : Port → Port
  | .floor => .yard
  | .yard => .floor

/-- FORWARD_FRAME (R161, R162): a frame that the classification forwards joins the pass-through queue
of the other port, whatever the state. Any other frame is not this event's (log 23). -/
def execForwardFrame (port : Port) (frame : RawFrame) (s : State) :
    Host.Outcome State Fault Refusal :=
  if classify s.hub s.unit port frame = .forward then
    .next (s.placePass (portOther port) frame.bytes)
  else .next s

/-- DISCARD_FRAME (R161): a discarded frame has no effect and is answered by nothing. -/
def execDiscardFrame (_port : Port) (_frame : RawFrame) (s : State) :
    Host.Outcome State Fault Refusal := .next s

/-- A port's transmission ends and the next one begins (R164). -/
def State.endTransmission (s : State) (p : Port) : State :=
  s.setPort p ({ s.port p with sending := none } : PortState).begin

/-- TRANSMISSION_END (R164, R173). On YARD with a restart pending, the end of the reply's transmission
is the restart; the end of an earlier frame begins the reply, ahead of both queues. `hub` and `unit`
are the strap pins as RESTART FULL samples them (R165). -/
def execTransmissionEnd (port : Port) (hub : Byte) (unit : BitVec 4) (s : State) :
    Host.Outcome State Fault Refusal :=
  match port, s.restart with
  | .yard, some r =>
      match r.reply with
      | none => .next (s.executeRestart r.kind hub unit)
      | some x =>
          .next { s with
            yard := { s.yard with sending := some (.own x) }
            restart := some { r with reply := none, begun := true } }
  | _, _ => .next (s.endTransmission port)

/-! ## Management frames (R166, R175) -/

/-- The tag of a management body; none when the body ends before it. -/
def bodyTag : List Byte → Option (BitVec 16)
  | a :: b :: _ => some (cat2 a b)
  | _ => none

/-- The stop-on-refusal flag and the elements of a management body; none when the frame is refused
whole: a count of 0 or above 32, or elements that do not all fit (R166, R175). -/
def bodyElements : List Byte → Option (Bool × List (Byte × List Byte))
  | _ :: _ :: flags :: count :: rest =>
      if count.toNat = 0 || Config.requestCapacity < count.toNat then none
      else (takeElements count.toNat rest).map fun es => (flags.getLsbD 0, es)
  | _ => none

/-- The reply to a frame refused whole (R166). A body that ends before its tag gives the reply a tag
that no rule states: a free value (log 17). -/
def State.refuseFrame (s : State) (src : Address) (body : List Byte) : State :=
  let reply (tag : BitVec 16) : OwnBody :=
    .reply { tag := tag, status := .badRequest, results := [], records := [] }
  match bodyTag body with
  | some tag => s.placeOwn .yard src (reply tag)
  | none =>
      { s with freeCount := s.freeCount + 1 }.placeOwn .yard src
        (reply (Config.missingTag s.freeCount))

/-- MGMT_FRAME (R166): discarded while a restart is pending (R173) and while 4 frames are in
progress; refused whole with a reply at once; otherwise a frame in progress. -/
def execMgmtFrame (src : Address) (body : List Byte) (s : State) :
    Host.Outcome State Fault Refusal :=
  if s.restartPending then .next s
  else match bodyElements body with
    | none => .next (s.refuseFrame src body)
    | some (stop, left) =>
        if Config.frameCapacity ≤ s.frames.length then .next s
        else .next { s with frames := s.frames ++
          [{ source := src, tag := (bodyTag body).getD 0, stop := stop, left := left }] }

end Sys2Proof.Machine
end

