-- ==== Sys2Proof/Machine/Routes.lean ====
section
/-! DEFINITION. The requests of the route unit (chapter 2): edits of the standby bank, the switch, and the bank reads. -/

namespace Sys2Proof.Machine

/-! ## Zone entries (R29, R30) -/

/-- Whether an entry shares a zone with the range `f` to `l`. -/
def ZoneEntry.meets (e : ZoneEntry) (f l : Nat) : Bool := e.first ≤ l && f ≤ e.last

/-- Writes an entry over the one of the same range. -/
def replaceZone (zs : List ZoneEntry) (x : ZoneEntry) : List ZoneEntry :=
  zs.map fun e => if e.first = x.first && e.last = x.last then x else e

/-- Places an entry after every one whose first zone is lower. -/
def insertZone : List ZoneEntry → ZoneEntry → List ZoneEntry
  | [], x => [x]
  | e :: zs, x => if e.first < x.first then e :: insertZone zs x else x :: e :: zs

/-- The rule of PUT_ZONE: the tests of R29 in order. -/
def putZone (first last : ZoneCode) (depot hold : Byte) (s : State) : Taken :=
  match zoneValue first, zoneValue last with
  | some f, some l =>
      if l < f || !isDepot depot.toNat || 1 < hold.toNat then .refused .outOfRange
      else
        let x : ZoneEntry := { first := f, last := l, depot := depot.toNat, hold := hold = 1 }
        let b := s.standby
        if b.zones.any fun e => e.first = f && e.last = l then
          .done (s.setStandby { b with zones := replaceZone b.zones x }) none
        else if b.zones.any (·.meets f l) then .refused .overlap
        else if Config.zoneCapacity ≤ b.zones.length then .refused .tableFull
        else .done (s.setStandby { b with zones := insertZone b.zones x }) none
  | _, _ => .refused .outOfRange

/-- The rule of DROP_ZONE (R30). -/
def dropZone (first : ZoneCode) (s : State) : Taken :=
  match zoneValue first with
  | none => .refused .outOfRange
  | some f =>
      let b := s.standby
      if b.zones.any fun e => e.first = f then
        .done (s.setStandby { b with zones := b.zones.filter fun e => e.first ≠ f }) none
      else .refused .noSuch

/-! ## Depot rows (R31, R32) -/

/-- Whether a class code is one of the four (R28). -/
def isClass (c : Byte) : Bool := c.toNat ≤ 3

/-- The rule of PUT_DEPOT_ROW (R31): `trunks` are the four places of the request, of which the first
`count` form the list. -/
def putDepotRow (depot cls count : Byte) (trunks : List Byte) (s : State) : Taken :=
  let row := (trunks.take count.toNat).map BitVec.toNat
  if count.toNat < 1 || 4 < count.toNat then .refused .badRequest
  else if !isDepot depot.toNat || !isClass cls || !row.all isTrunkNumber || !decide row.Nodup then
    .refused .outOfRange
  else
    let b := s.standby
    .done (s.setStandby { b with rows := b.rows.put (rowSlot cls.toNat depot.toNat) row }) none

/-- The rule of DROP_DEPOT_ROW (R32). -/
def dropDepotRow (depot cls : Byte) (s : State) : Taken :=
  let slot := rowSlot cls.toNat depot.toNat
  let b := s.standby
  if !isDepot depot.toNat || !isClass cls then .refused .outOfRange
  else if (b.rows.get? slot).isSome then
    .done (s.setStandby { b with rows := b.rows.erase slot }) none
  else .refused .noSuch

/-! ## Reads (R36, R37) -/

/-- The bank that holds a role: 0 ACTIVE, 1 STANDBY (11.3). -/
def State.roleBank (s : State) (role : Byte) : Option BankNumber :=
  match role.toNat with
  | 0 => some s.active
  | 1 => some s.active.other
  | _ => none

/-- The entry a READ_ZONE returns: the one that contains the zone, or the lowest one above it (R36).
Entries stand in ascending order. -/
def Bank.entryAt (b : Bank) (z : Nat) : Option ZoneEntry :=
  (b.zones.find? (·.contains z)).or (b.zones.find? fun e => z < e.first)

/-- The rule of READ_ZONE (R36). -/
def readZone (role : Byte) (zone : ZoneCode) (s : State) : Taken :=
  match s.roleBank role, zoneValue zone with
  | some n, some z =>
      .done s (some (.zone n (s.bank n).zones.length ((s.bank n).entryAt z)))
  | _, _ => .refused .outOfRange

/-- The rule of READ_DEPOT_ROW (R37). -/
def readDepotRow (role depot cls : Byte) (s : State) : Taken :=
  match s.roleBank role with
  | some n =>
      if !isDepot depot.toNat || !isClass cls then .refused .outOfRange
      else .done s (some (.row n ((s.bank n).rows.get? (rowSlot cls.toNat depot.toNat))))
  | none => .refused .outOfRange

/-! ## The commands -/

/-- PUT_ZONE (R29). -/
def execPutZone (first last : ZoneCode) (depot hold : Byte) (s : State) :
    Host.Outcome State Fault Refusal :=
  takeRequest (.putZone first last depot hold) (putZone first last depot hold) s

/-- DROP_ZONE (R30). -/
def execDropZone (first : ZoneCode) (s : State) : Host.Outcome State Fault Refusal :=
  takeRequest (.dropZone first) (dropZone first) s

/-- PUT_DEPOT_ROW (R31). -/
def execPutDepotRow (depot cls count t1 t2 t3 t4 : Byte) (s : State) :
    Host.Outcome State Fault Refusal :=
  takeRequest (.putDepotRow depot cls count t1 t2 t3 t4)
    (putDepotRow depot cls count [t1, t2, t3, t4]) s

/-- DROP_DEPOT_ROW (R32). -/
def execDropDepotRow (depot cls : Byte) (s : State) : Host.Outcome State Fault Refusal :=
  takeRequest (.dropDepotRow depot cls) (dropDepotRow depot cls) s

/-- COPY_BANK (R33). -/
def execCopyBank (s : State) : Host.Outcome State Fault Refusal :=
  takeRequest .copyBank (fun s => .done (s.setStandby (s.bank s.active)) none) s

/-- CLEAR_BANK (R34). -/
def execClearBank (s : State) : Host.Outcome State Fault Refusal :=
  takeRequest .clearBank (fun s => .done (s.setStandby {}) none) s

/-- SWITCH_BANK (R35). -/
def execSwitchBank (s : State) : Host.Outcome State Fault Refusal :=
  takeRequest .switchBank
    (fun s =>
      .done (State.raise { s with active := s.active.other } .bankSwitch (.bank s.active.other))
        none) s

/-- READ_ZONE (R36). -/
def execReadZone (role : Byte) (zone : ZoneCode) (s : State) : Host.Outcome State Fault Refusal :=
  takeRequest (.readZone role zone) (readZone role zone) s

/-- READ_DEPOT_ROW (R37). -/
def execReadDepotRow (role depot cls : Byte) (s : State) : Host.Outcome State Fault Refusal :=
  takeRequest (.readDepotRow role depot cls) (readDepotRow role depot cls) s

end Sys2Proof.Machine
end

