-- ==== Sys2Proof/Machine/Scans.lean ====
section
/-! DEFINITION. The scans (chapters 1, 5, 7 and 8): the checks made on every scan, the repeat list, intake, lane, load and rework scans, and PROBE. -/

namespace Sys2Proof.Machine

/-! ## The repeat list (R4, R5) -/

/-- Whether an entry names a place and label. -/
def RepeatEntry.names (e : RepeatEntry) (k : PlaceKind) (n : Nat) (l : Label) : Bool :=
  e.kind = k && e.number = n && e.label = l

/-- Whether an entry is live: its time not above the clock, its age less than the window (section 1.2).
It is judged anew at each scan, so that an entry that a clock set back made expired is live again once
the clock stands within its window: DEDUCED, log 39. -/
def State.isLive (s : State) (e : RepeatEntry) : Bool :=
  e.time ≤ s.clock.value && s.clock.value - e.time < s.limits.repeatWindow

/-- Whether a valid scan is a repeat (R4). -/
def State.isRepeat (s : State) (k : PlaceKind) (n : Nat) (l : Label) : Bool :=
  s.repeats.any fun e => e.names k n l && s.isLive e

/-- Enters a scan that is no repeat (R5). -/
def State.enterRepeat (s : State) (k : PlaceKind) (n : Nat) (l : Label) : State :=
  let kept := s.repeats.filter fun e => !e.names k n l
  let kept := if Config.repeatCapacity ≤ kept.length then kept.drop 1 else kept
  { s with repeats := kept ++ [{ kind := k, number := n, label := l, time := s.clock.value }] }

/-! ## Intake (R10, R12 to R16) -/

/-- The record that an intake writes from its clamped scan (R10, R12, R15 step 3). -/
def State.intakeRecord (s : State) (scan : ScanFields) : Pallet :=
  let type := typeOf scan.type
  { label := scan.label
    zone := scan.zone
    cls := Machine.classOf scan.cls
    type := type
    quarters := type.quarters
    typeLimit := type.limit
    measured := scan.kg.toNat
    bookingKg := if scan.kg = 0 then type.limit else scan.kg.toNat
    intakeDoor := scan.number.toNat
    intakeTime := s.clock.value
    location := .apron scan.number.toNat }

/-- What routing and the choice of a trunk make of an intake record that passed the weight check
(R14): a reason with the depot stored, or a booking; and the record's FALLBACK flag. -/
inductive Admission where
  | fails (depot : Option Nat) (fallback : Bool) (reason : Reason)
  | books (depot : Nat) (fallback : Bool) (choice : Choice)
  deriving DecidableEq, Repr

/-- Routing and choice for an intake record (R14, R25, R66). -/
def State.admission (s : State) (p : Pallet) : Admission :=
  match (s.bank s.active).lookup p.zone p.cls with
  | .noRoute => .fails none false .noRoute
  | .zoneHeld => .fails none false .zoneHeld
  | .noTrunk depot => .fails (some depot) false .noTrunk
  | .found depot fallback candidates =>
      match s.choose { p with depot := some depot } candidates with
      | none => .fails (some depot) fallback .noTrunk
      | some c => .books depot fallback c

/-- The verdict result of a reason an intake ends in (R13, R14). -/
def Reason.verdict : Reason → VerdictResult
  | .noRoute => .noRoute
  | .zoneHeld => .zoneHeld
  | .unsafeWeight => .unsafeWeight
  | _ => .noTrunk

/-- An intake that ends in EXCEPTION: the state and reason, the condition, the REWORK move (R13, R14,
R141). -/
def State.failIntake (s : State) (l : Label) (reason : Reason) (c : CondName) : State :=
  ((s.enterException l reason).raise c (.label l)).queueRework l

/-- The weight check, and routing and booking after it, of a record just written (R13, R14). -/
def Ev.checkIn (e : Ev) (l : Label) : Ev × VerdictResult :=
  match e.s.pallet? l with
  | none => (e, .noTrunk)
  | some p =>
      if Config.heaviestSafe < p.measured then
        ({ e with s := e.s.failIntake l .unsafeWeight .weight }, .unsafeWeight)
      else
        let heavy := decide (p.typeLimit < p.measured)
        let s := if heavy then
            (e.s.modPallet l fun p => { p with flags := { p.flags with overweight := true } }).raise
              .weight (.label l)
          else e.s
        let store (depot : Option Nat) (fallback : Bool) (s : State) : State :=
          s.modPallet l fun p =>
            { p with depot := depot, flags := { p.flags with fallback := fallback } }
        match s.admission p with
        | .fails depot fallback reason =>
            ({ e with s := (store depot fallback s).failIntake l reason .unrouted }, reason.verdict)
        | .books depot fallback c =>
            let s := store (some depot) fallback s
            match s.pallet? l with
            | none => ({ e with s := s }, .noTrunk)
            | some p =>
                let (e, works) := ({ e with s := s }).book p c
                (e.push works, .booked)

/-- An event that handles a scan of a label. -/
def Ev.ofScan (s : State) (l : Label) : Ev := { s := s, scanned := some l }

/-- Intake of a new label (R12). -/
def intakeNew (s : State) (scan : ScanFields) : Ev × VerdictResult :=
  if Config.palletCapacity ≤ s.pallets.length then (Ev.ofScan s scan.label, .tableFull)
  else
    let s := (s.addPallet (s.intakeRecord scan)).reportCount
    (Ev.ofScan s scan.label).checkIn scan.label

/-- Re-intake (R15): the move is withdrawn, a claim is released, the record is rewritten, and the
weight check, routing and booking follow. -/
def reIntake (s : State) (p : Pallet) (scan : ScanFields) : Ev × VerdictResult :=
  let l := p.label
  let s := (s.withdrawMove l).releaseClaim l
  let written := s.intakeRecord scan
  let s := s.modPallet l fun p => { written with label := l, state := p.state }
  let (e, result) := (Ev.ofScan s l).checkIn l
  ({ e with work := e.work ++ p.claimDoor.toList.map fun d => Work.pass d none }, result)

/-- Whether a pallet state is off the normal path (R15, chapter 8). -/
def PalletState.offPath : PalletState → Bool
  | .exception => true
  | .atRework => true
  | .misloaded => true
  | _ => false

/-- An INTAKE scan of a known label: a re-intake off the normal path, a duplicate on it (R15, R16). -/
def intakeKnown (s : State) (p : Pallet) (scan : ScanFields) : Ev × VerdictResult :=
  if p.state.offPath then reIntake s p scan
  else (Ev.ofScan (s.raise .duplicate (.label p.label)) p.label, .duplicateLabel)

/-! ## Lane scans (R91 to R98) -/

/-- Whether trunk `t` of a pallet is the active trunk of door `d`. -/
def State.isActiveAt (s : State) (t : Option Nat) (d : Nat) : Bool :=
  t.isSome && t = (s.door d).active

/-- Whether the trunk of a pallet is placed at door `d`, ACTIVE or NEXT. -/
def State.isPlacedAt (s : State) (t : Option Nat) (d : Nat) : Bool :=
  (t.bind s.doorOfTrunk) = some d

/-- The release attempt that a pallet's booking become STAGED requests, when its trunk is active at
`d` (R123). -/
def State.attemptFor (s : State) (p : Pallet) (d : Nat) : List Work :=
  match p.trunk with
  | some t => if s.isActiveAt p.trunk d then [.attempt t] else []
  | none => []

/-- Sets MISLANED in flags. -/
def PalletFlags.withMislaned (f : PalletFlags) (v : Bool) : PalletFlags := { f with mislaned := v }

/-- Planned arrival (R91). -/
def laneArrival (s : State) (p : Pallet) (d : Nat) : Ev × VerdictResult :=
  let s := (s.endMove p.label).modPallet p.label fun p =>
    { p with location := .lane d, state := .staged, flags := p.flags.withMislaned false }
  ({ Ev.ofScan s p.label with work := s.attemptFor p d }, .staged)

/-- Mislane of a pallet whose claim is at `home` (R92). -/
def laneMislane (s : State) (p : Pallet) (d home : Nat) : Ev × VerdictResult :=
  let s := (s.endMove p.label).modPallet p.label fun p =>
    { p with location := .lane d, state := .laneBound, flags := p.flags.withMislaned true }
  let s := s.makeMove p.label .shift (.lane d) (.lane home) home
  (Ev.ofScan (s.raise .mislane (.label p.label)) p.label, .mislane)

/-- The claim of a pallet at a door other than `d` is released (R93, R94); the door it was at. -/
def State.releaseElsewhere (s : State) (p : Pallet) (d : Nat) : State × List Nat :=
  match p.claimDoor with
  | some c => if c = d then (s, []) else (s.releaseClaim p.label, [c])
  | none => (s, [])

/-- Unplanned arrival of a HELD pallet (R93). -/
def laneUnplanned (s : State) (p : Pallet) (d : Nat) : Ev × VerdictResult :=
  let s := match p.trunk with
    | some t => s.leaveHeld t p.label
    | none => s
  let (s, doors) := s.releaseElsewhere p d
  let holds := p.claimDoor = some d
  let granted := !holds && s.claimTest p d
  let s := if granted then s.takeClaim p.label d else s
  let s := s.modPallet p.label fun p =>
    { p with location := .lane d, state := .staged, flags := { p.flags with unplanned := true } }
  ({ Ev.ofScan s p.label with
      work := doors.map (fun c => Work.pass c none) ++
        if granted || holds then s.attemptFor p d else [] }, .staged)

/-- A pallet in a lane that does not serve its trunk (R94). -/
def laneMisplaced (s : State) (p : Pallet) (d : Nat) : Ev × VerdictResult :=
  let (s, doors) := s.releaseElsewhere p d
  let s := s.modPallet p.label fun p => { p with location := .lane d, state := .held }
  let (s, joined) := match p.state, p.trunk with
    | .staged, some t => (s.joinHeld t p.label, (s.doorOfTrunk t).toList)
    | _, _ => (s, [])
  ({ Ev.ofScan s p.label with
      work := (doors ++ joined).dedup.map fun c => Work.pass c none }, .held)

/-- Rescan of a STAGED pallet in its own lane (R95). -/
def laneRescan (s : State) (p : Pallet) (d : Nat) : Ev × VerdictResult :=
  if p.claimDoor.isNone && s.claimTest p d then
    let s := s.takeClaim p.label d
    ({ Ev.ofScan s p.label with work := s.attemptFor p d }, .staged)
  else (Ev.ofScan s p.label, .staged)

/-- Ends a LOAD_BOUND pallet's LOAD move and makes a new one from LANE(d) for queue `home` (R96). -/
def State.renewLoad (s : State) (p : Pallet) (d home : Nat) (mislaned : Bool) : State :=
  let s := (s.endMove p.label).modPallet p.label fun p =>
    { p with location := .lane d, flags := p.flags.withMislaned mislaned }
  s.makeMove p.label .load (.lane d) (.trailer (p.trunk.getD 0)) home

/-- A LANE scan of a LOAD_BOUND pallet whose door is `home` (R96). -/
def laneReleased (s : State) (p : Pallet) (d home : Nat) : Ev × VerdictResult :=
  if d = home then
    if p.flags.mislaned then (Ev.ofScan (s.renewLoad p d home false) p.label, .staged)
    else (Ev.ofScan s p.label, .staged)
  else
    (Ev.ofScan ((s.renewLoad p d home true).raise .mislane (.label p.label)) p.label, .mislane)

/-- A stray: an unbooked pallet in a lane (R97). -/
def laneStray (s : State) (p : Pallet) (d : Nat) : Ev × VerdictResult :=
  let s := s.modPallet p.label fun p =>
    { p with
      state := .exception
      reason := p.reason.or (some .stray)
      location := .lane d
      move := p.move.map fun mv => { mv with source := .lane d } }
  let s := s.queueRework p.label
  (Ev.ofScan (s.raise .mislane (.label p.label)) p.label, .noBooking)

/-- A LOADED pallet outside its trailer (R98). -/
def laneLoaded (s : State) (p : Pallet) : Ev × VerdictResult :=
  (Ev.ofScan (s.raise .mislane (.label p.label)) p.label, .mislane)

/-- A LANE scan of a known label at door `d`: the table of section 5.4. Combinations that no run
reaches take the nearest row (log 24). -/
def laneKnown (s : State) (p : Pallet) (d : Nat) : Ev × VerdictResult :=
  match p.state with
  | .laneBound =>
      match p.claimDoor with
      | some c => if c = d then laneArrival s p d else laneMislane s p d c
      | none => laneMisplaced s p d
  | .staged =>
      match p.claimDoor with
      | some c => if c = d then laneRescan s p d else laneMislane s p d c
      | none => if s.isPlacedAt p.trunk d then laneRescan s p d else laneMisplaced s p d
  | .held => if s.isPlacedAt p.trunk d then laneUnplanned s p d else laneMisplaced s p d
  | .loadBound => laneReleased s p d (p.claimDoor.getD d)
  | .exception => laneStray s p d
  | .misloaded => laneStray s p d
  | .atRework => laneStray s p d
  | .loaded => laneLoaded s p

/-! ## Load scans (R133 to R139) -/

/-- The booking of a label becomes LOADED on trunk `t`, and the loaded counts rise by it (R134, R135). -/
def Trunk.loadBooking (r : Trunk) (l : Label) : Trunk :=
  let b := r.booking? l
  { r.setStanding l .loaded with
    loadedQuarters := r.loadedQuarters + (b.map Booking.quarters).getD 0
    loadedKg := r.loadedKg + (b.map Booking.kg).getD 0 }

/-- Planned load (R134). -/
def loadPlanned (s : State) (p : Pallet) (t : Nat) : Ev × VerdictResult :=
  let l := p.label
  let s := s.endMove l
  let s := s.modTrunk t fun r => { r.loadBooking l with inFlight := r.inFlight - 1 }
  let s := s.modPallet l fun p => { p with state := .loaded, location := .trailer t }
  let s := s.releaseClaim l
  ({ Ev.ofScan s l with
      position := p.position
      work := passesAt p.claimDoor.toList t true ++ [.attempt t] }, .loaded)

/-- The position of an unplanned load (R136): the verdict fields, and whether the balance test failed. -/
def Ev.unplannedPosition (e : Ev) (p : Pallet) (t : Nat) (r : Trunk) : Ev × Bool :=
  let c := e.s.classOf r
  let f := r.fit c.rows p.quarters p.bookingKg
  match f.target? with
  | none =>
      ({ e with s := e.s.modPallet p.label fun p =>
          { p with flags := { p.flags with noFit := true } } }, false)
  | some q =>
      let x := r.project c p.bookingKg q
      let s := e.s.modTrunk t fun r => r.place f x p.quarters p.bookingKg
      let s := s.modPallet p.label fun p => { p with position := some q }
      ({ e with s := s, position := some q, kingpin := x.kingpin, axle := x.axle }, !x.passes c)

/-- Unplanned load into the pallet's own trunk `t`, whose record at the scan is `r`, at door `d`
(R135, R136). -/
def loadUnplanned (s : State) (p : Pallet) (t d : Nat) (r : Trunk) : Ev × VerdictResult :=
  let l := p.label
  let wrongOrder := p.drop = some .a &&
    r.window.any fun b => b.drop = .b && b.standing = .unreleased
  let s := ((s.endMove l).releaseClaim l).leaveHeld t l
  let s := s.modTrunk t (·.loadBooking l)
  let s := s.modPallet l fun p =>
    { p with
      state := .loaded, location := .trailer t
      flags := { p.flags with unplanned := true } }
  let (e, failed) := (Ev.ofScan s l).unplannedPosition p t r
  let s := if wrongOrder || failed then e.s.raise .misload (.label l) else e.s
  let changed := (s.trunk? t).any fun r' => r'.loadingDrop ≠ r.loadingDrop
  ({ e with
      s := s
      work := passesAt (p.claimDoor.toList ++ if changed then [d] else []) t true ++
        [.attempt t] }, .loaded)

/-- The pallet becomes MISLOADED in the trailer of trunk `t`, and MISLOAD is raised (R137, R138). -/
def State.becomeMisloaded (s : State) (l : Label) (t : Nat) : State :=
  (s.modPallet l fun p => { p with state := .misloaded, location := .trailer t }).raise
    .misload (.label l)

/-- Misload of a pallet booked to trunk `u` (R137, R78). MISLOAD is raised before the work of step 6 of
the flush: DEDUCED, log 43. -/
def loadBookedMisload (s : State) (p : Pallet) (t u : Nat) : Ev × VerdictResult :=
  let e := (Ev.ofScan s p.label).flush u p.label .misload
  ({ e with s := e.s.becomeMisloaded p.label t }, .misload)

/-- Misload of an unbooked pallet (R138). -/
def loadUnbookedMisload (s : State) (p : Pallet) (t : Nat) : Ev × VerdictResult :=
  (Ev.ofScan ((s.endMove p.label).becomeMisloaded p.label t) p.label, .misload)

/-- A LOAD scan of a LOADED pallet (R139). -/
def loadLoaded (s : State) (p : Pallet) (t : Nat) : Ev × VerdictResult :=
  if p.trunk = some t then ({ Ev.ofScan s p.label with position := p.position }, .loaded)
  else
    ({ Ev.ofScan (s.raise .misload (.label p.label)) p.label with position := p.position },
      .misload)

/-- A LOAD scan of a known label at door `d`, by the first test of R133 that applies. -/
def loadKnown (s : State) (p : Pallet) (d : Nat) : Ev × VerdictResult :=
  match (s.door d).active with
  | none => (Ev.ofScan (s.raise .misload (.label p.label)) p.label, .lateLoad)
  | some t =>
      if p.state = .loaded then loadLoaded s p t
      else match p.trunk with
        | none => loadUnbookedMisload s p t
        | some u =>
            if u ≠ t then loadBookedMisload s p t u
            else if p.state = .loadBound then loadPlanned s p t
            else match s.trunk? t with
              | some r => loadUnplanned s p t d r
              | none => loadUnbookedMisload s p t

/-! ## Rework scans (R142 to R144) -/

/-- A pallet in EXCEPTION or MISLOADED is taken into the rework area (R142). -/
def reworkTake (s : State) (p : Pallet) : Ev × VerdictResult :=
  let s := (s.endMove p.label).modPallet p.label fun p =>
    { p with state := .atRework, location := .rework }
  (Ev.ofScan s p.label, .atRework)

/-- A booked pallet is taken off its trunk `t` (R143): this is no flush. The attempt is made
whenever the trunk is ACTIVE (log 33). -/
def reworkWithdraw (s : State) (p : Pallet) (t : Nat) : Ev × VerdictResult :=
  let l := p.label
  let before := (s.trunk? t).map Trunk.loadingDrop
  let s := (((s.endMove l).releaseClaim l).withdrawRelease t l).withdrawBooking t l
  let s := s.modPallet l fun p => { p with state := .atRework, location := .rework }
  let home := (s.trunk? t).bind Trunk.activeDoor?
  let changed := home.isSome && (s.trunk? t).map Trunk.loadingDrop ≠ before
  ({ Ev.ofScan s l with
      work := passesAt (p.claimDoor.toList ++ if changed then home.toList else []) t home.isSome ++
        if home.isSome then [.attempt t] else [] }, .atRework)

/-- A REWORK scan of a LOADED pallet (R144): MISLANE, with the record as it was. The verdict carries the
pallet's position and row, since R144 says so and R7 leaves the loading fields of a verdict to the block
that owns the scan; the table of R19 leaves them absent for MISLANE (DEDUCED, log 19). -/
def reworkLoaded (s : State) (p : Pallet) : Ev × VerdictResult :=
  ({ Ev.ofScan (s.raise .mislane (.label p.label)) p.label with position := p.position }, .mislane)

/-- A REWORK scan of a known label: the table of section 8.3. -/
def reworkKnown (s : State) (p : Pallet) : Ev × VerdictResult :=
  match p.state with
  | .exception => reworkTake s p
  | .misloaded => reworkTake s p
  | .atRework => (Ev.ofScan s p.label, .atRework)
  | .loaded => reworkLoaded s p
  | _ =>
      match p.trunk with
      | some t => reworkWithdraw s p t
      | none => reworkTake s p

/-! ## Taking a scan (R1 to R7) -/

/-- A scan of a known label is handed on by its place kind (R7). -/
def scanKnown (s : State) (k : PlaceKind) (p : Pallet) (scan : ScanFields) : Ev × VerdictResult :=
  match k with
  | .intake => intakeKnown s p scan
  | .lane => laneKnown s p scan.number.toNat
  | .load => loadKnown s p scan.number.toNat
  | .rework => reworkKnown s p

/-- A valid scan that is not a repeat is handed on (R7). -/
def scanEvent (s : State) (k : PlaceKind) (scan : ScanFields) : Ev × VerdictResult :=
  match s.pallet? scan.label with
  | some p => scanKnown s k p scan
  | none => if k = .intake then intakeNew s scan else (Ev.ofScan s scan.label, .unknownPallet)

/-- An event and then what closes it, the verdict last (R21, R116). So the notice of a MOVERS_SHORT
report that closes the event (R119) stands on YARD before the verdict's copy; R21 orders the verdict
after FLOOR's directives only, and no rule orders the two: DESIGN CHOICE, log 45. -/
def finishScan (src : Address) (kind : Byte) (scan : ScanFields) (x : Ev × VerdictResult) :
    Host.Outcome State Fault Refusal :=
  runEvent { x.1 with work := x.1.work ++ closing ++ [.verdict src kind scan x.2] }

/-- A scan as the scan decoder takes it (R1 to R7): the place, the digits, the clamping, the repeat
list, then the block that owns it. While a restart is pending it is discarded (R173). -/
def takeScan (src : Address) (kind : Byte) (scan : ScanFields) (s : State) :
    Host.Outcome State Fault Refusal :=
  if s.restartPending then .next s
  else match placeKindOf kind with
    | none => .next (s.sendVerdict src { echoKind := kind, echo := scan, result := .badPlace })
    | some k =>
        let n := scan.number.toNat
        if !placeInRange k n then
          .next (s.sendVerdict src { echoKind := kind, echo := scan, result := .badPlace })
        else if !digitsPass scan then
          .next (s.sendVerdict src { echoKind := kind, echo := scan, result := .badLabel })
        else
          let scan := clampScan scan
          if s.isRepeat k n scan.label then
            .next (s.sendVerdict src (s.verdictOf kind scan .repeated))
          else finishScan src kind scan (scanEvent (s.enterRepeat k n scan.label) k scan)

/-- INTAKE_SCAN (R12). -/
def execIntakeScan (src : Address) (scan : ScanFields) (s : State) :
    Host.Outcome State Fault Refusal := takeScan src 0 scan s

/-- LANE_SCAN (R91). -/
def execLaneScan (src : Address) (scan : ScanFields) (s : State) :
    Host.Outcome State Fault Refusal := takeScan src 1 scan s

/-- LOAD_SCAN (R133). -/
def execLoadScan (src : Address) (scan : ScanFields) (s : State) :
    Host.Outcome State Fault Refusal := takeScan src 2 scan s

/-- REWORK_SCAN (R142). -/
def execReworkScan (src : Address) (scan : ScanFields) (s : State) :
    Host.Outcome State Fault Refusal := takeScan src 3 scan s

/-- BAD_PLACE_KIND_SCAN (R1). -/
def execBadPlaceKindScan (src : Address) (kind : Byte) (scan : ScanFields) (s : State) :
    Host.Outcome State Fault Refusal := takeScan src kind scan s

/-! ## PROBE (R17, R18) -/

/-- The evaluation of R17's step 4 for an intake record. -/
def State.probeRecord (s : State) (kind : Byte) (scan : ScanFields) : Verdict :=
  let p := s.intakeRecord scan
  let marks : PalletFlags := { overweight := decide (p.typeLimit < p.measured) }
  if Config.heaviestSafe < p.measured then
    { echoKind := kind, echo := scan, result := .unsafeWeight, state := some .exception }
  else match s.admission p with
    | .fails _ fallback reason =>
        { echoKind := kind, echo := scan, result := reason.verdict, state := some .exception
          flags := { marks with fallback := fallback } }
    | .books _ fallback c =>
        { echoKind := kind, echo := scan, result := .booked, state := some .held
          trunk := some c.trunk, drop := some c.drop, door := s.doorOfTrunk c.trunk
          candidate := c.index
          flags := { marks with fallback := fallback, spill := c.spill } }

/-- The verdict of PROBE (R17; its door and a duplicate's fields: log 30). -/
def State.probe (s : State) (kind : Byte) (scan : ScanFields) : Verdict :=
  if placeKindOf kind ≠ some .intake || !placeInRange .intake scan.number.toNat then
    { echoKind := kind, echo := scan, result := .badPlace }
  else if !digitsPass scan then { echoKind := kind, echo := scan, result := .badLabel }
  else
    let scan := clampScan scan
    match s.pallet? scan.label with
    | none =>
        if Config.palletCapacity ≤ s.pallets.length then
          { echoKind := kind, echo := scan, result := .tableFull }
        else s.probeRecord kind scan
    | some p =>
        if p.state.offPath then s.probeRecord kind scan
        else s.verdictOf kind scan .duplicateLabel

/-- PROBE (R17, R18). -/
def execProbe (kind : Byte) (scan : ScanFields) (s : State) : Host.Outcome State Fault Refusal :=
  takeRequest (.probe kind scan) (fun s => .done s (some (.verdict (s.probe kind scan)))) s

end Sys2Proof.Machine
end

