-- ==== Sys2Proof/Machine/Terminals.lean ====
section
/-! DEFINITION. Terminal frames (section 6.4): SIGN_ON, SIGN_OFF, ACCEPT, DECLINE and ABANDON, each by the mover's state. -/

namespace Sys2Proof.Machine

/-- A terminal frame is taken (R108): discarded while a restart is pending (R173), ignored for a mover
number outside 1 to 32, and closed by the grant attempt and its report. -/
def takeTerminal (mover : Byte) (rule : Nat → State → State) (s : State) :
    Host.Outcome State Fault Refusal :=
  let m := mover.toNat
  if s.restartPending || !isMoverNumber m then .next s
  else runEvent { s := rule m s, work := closing }

/-- Whether mover `m` holds the move of a number. -/
def State.holdsMove (s : State) (m n : Nat) : Bool := (s.mover m).move = some n

/-- The move a mover holds returns to its queue, and the mover becomes FREE (R106, R101). -/
def State.returnAndFree (s : State) (m : Nat) : State := (s.giveBack m).freeMover m

/-- SIGN_ON from an address (R109). -/
def State.signOn (s : State) (src : Address) (m : Nat) : State :=
  let s := s.modMover m fun r => { r with address := some src }
  match (s.mover m).state with
  | .offered => s.returnAndFree m
  | .busy => s.returnAndFree m
  | .free => s
  | .off => s.freeMover m
  | .silent => s.freeMover m

/-- SIGN_OFF (R110). -/
def State.signOff (s : State) (m : Nat) : State :=
  match (s.mover m).state with
  | .off => s
  | .free => s.idleMover m .off
  | .silent => s.idleMover m .off
  | .offered => (s.giveBack m).idleMover m .off
  | .busy => (s.giveBack m).idleMover m .off

/-- An ACCEPT of the move a mover is OFFERED (R111, R115): a done deadline reached as it is armed is
taken in the same event. -/
def State.acceptMove (s : State) (m n : Nat) : State :=
  let armed := s.deadlineIn s.limits.doneTimeout
  let s : State := match s.palletOfMove n with
    | none => s
    | some p =>
        s.modPallet p.label fun p =>
          { p with move := p.move.map fun mv =>
              { mv with
                state := .accepted
                acceptDeadline := none
                doneDeadline := some armed } }
  let s := s.modMover m fun r => { r with state := .busy }
  if s.atLastSecond then s.expireMove m else s

/-- ACCEPT (R111). A move number 0 is out of range (R174), and no rule says what it does: it is taken as
any other number that the mover's move does not hold, and the CANCEL that answers it carries 0
(DESIGN CHOICE, log 48). -/
def State.acceptFrame (s : State) (m n : Nat) : State :=
  match (s.mover m).state with
  | .off => s
  | .free => s.sendDirective m (.cancel m n)
  | .offered => if s.holdsMove m n then s.acceptMove m n else s.sendDirective m (.cancel m n)
  | .busy => if s.holdsMove m n then s else s.sendDirective m (.cancel m n)
  | .silent => (s.sendDirective m (.cancel m n)).freeMover m

/-- DECLINE (R112); move number 0: log 48. -/
def State.declineFrame (s : State) (m n : Nat) : State :=
  match (s.mover m).state with
  | .offered => if s.holdsMove m n then s.returnAndFree m else s
  | .silent => s.freeMover m
  | .off => s
  | .free => s
  | .busy => s

/-- ABANDON (R113); move number 0: log 48. -/
def State.abandonFrame (s : State) (m n : Nat) : State :=
  match (s.mover m).state with
  | .offered => if s.holdsMove m n then s.returnAndFree m else s
  | .busy => if s.holdsMove m n then s.returnAndFree m else s
  | .silent => s.freeMover m
  | .off => s
  | .free => s

/-- SIGN_ON (R109). -/
def execSignOn (src : Address) (mover : Byte) (s : State) : Host.Outcome State Fault Refusal :=
  takeTerminal mover (fun m s => s.signOn src m) s

/-- SIGN_OFF (R110). -/
def execSignOff (mover : Byte) (s : State) : Host.Outcome State Fault Refusal :=
  takeTerminal mover (fun m s => s.signOff m) s

/-- ACCEPT (R111). -/
def execAccept (mover : Byte) (move : BitVec 16) (s : State) : Host.Outcome State Fault Refusal :=
  takeTerminal mover (fun m s => s.acceptFrame m move.toNat) s

/-- DECLINE (R112). -/
def execDecline (mover : Byte) (move : BitVec 16) (s : State) : Host.Outcome State Fault Refusal :=
  takeTerminal mover (fun m s => s.declineFrame m move.toNat) s

/-- ABANDON (R113). -/
def execAbandon (mover : Byte) (move : BitVec 16) (s : State) : Host.Outcome State Fault Refusal :=
  takeTerminal mover (fun m s => s.abandonFrame m move.toNat) s

end Sys2Proof.Machine
end

