-- ==== Sys2Proof/Machine/Trunks.lean ====
section
/-! DEFINITION. The requests of the trunk table (chapter 3): trailer classes, trunk records, placement, departure, and their reads. -/

namespace Sys2Proof.Machine

/-! ## Trailer classes (R43 to R45) -/

/-- 0 to 7 (R43). -/
def isClassSlot (n : Nat) : Bool := n ≤ 7

/-- Whether the nine fields of a class are within the ranges of R43. -/
def TrailerClass.inRange (c : TrailerClass) : Bool :=
  (4 ≤ c.rows && c.rows ≤ 16) && (60 ≤ c.pitch && c.pitch ≤ 150) && c.front ≤ 300 &&
    (300 ≤ c.axle && c.axle ≤ 1500) && c.kingpinTare ≤ 20000 && c.axleTare ≤ 20000 &&
    (1000 ≤ c.kingpinLimit && c.kingpinLimit ≤ 30000) &&
    (1000 ≤ c.axleLimit && c.axleLimit ≤ 40000) && (1000 ≤ c.payload && c.payload ≤ 30000)

/-- The number of trunks that name a class (R45). -/
def State.trunksOfClass (s : State) (n : Nat) : Nat :=
  (s.trunks.filter fun e => e.2.cls == n).length

/-- The rule of PUT_TRAILER_CLASS (R44). -/
def putTrailerClass (n : Nat) (c : TrailerClass) (s : State) : Taken :=
  if !isClassSlot n || !c.inRange then .refused .outOfRange
  else if s.trunksOfClass n ≠ 0 then .refused .inUse
  else .done { s with classes := s.classes.put n c } none

/-- The rule of READ_TRAILER_CLASS (R45). -/
def readTrailerClass (n : Nat) (s : State) : Taken :=
  if !isClassSlot n then .refused .outOfRange
  else .done s (some (.trailerClass ((s.classes.get? n).map fun c => (c, s.trunksOfClass n))))

/-! ## Trunk records (R46, R47, R50) -/

/-- The largest close margin (R46). -/
def largestMargin : Nat := 7200

/-- The margin of a PUT_TRUNK that gives none (R46). -/
def defaultMargin : Nat := 900

/-- The wire's code of a margin not given (R175). -/
def marginNotGiven : BitVec 16 := 0xFFFF

/-- The close margin of a PUT_TRUNK (R46, R175). -/
def marginOf (margin : BitVec 16) : Nat :=
  if margin = marginNotGiven then defaultMargin else margin.toNat

/-- Whether a trunk's drops are in range: drop B absent, or in range and not drop A (test 1 of R47). -/
def dropsInRange (dropA : Nat) (dropB : Option Nat) : Bool :=
  isDepot dropA && dropB.all fun b => isDepot b && b ≠ dropA

/-- The record as PUT_TRUNK makes it (R46), at a placement it keeps (step 5 of R47). -/
def newTrunk (dropA : Nat) (dropB : Option Nat) (cls cutoff margin : Nat) (placement : Placement) :
    Trunk :=
  { dropA := dropA, dropB := dropB, cls := cls, cutoff := cutoff, margin := margin
    placement := placement }

/-- The record that step 5 of R47 updates: the request's fields, the phase, the placement state and
the in-flight count; the rest is kept. -/
def Trunk.renew (old new : Trunk) : Trunk :=
  { old with
    dropA := new.dropA, dropB := new.dropB, cls := new.cls, cutoff := new.cutoff
    margin := new.margin, phase := .opened, openPosition := none, fill := 0, topWeight := 0
    plannedWeight := 0, plannedMoment := 0, inFlight := 0 }

/-- The rule of PUT_TRUNK (R47): the new phase is then tested against the clock. -/
def putTrunk (t dropA : Nat) (dropB : Option Nat) (cls cutoff margin : Nat) (s : State) : Taken :=
  if !isTrunkNumber t || !isClassSlot cls || !dropsInRange dropA dropB ||
      Config.lastSecond < cutoff || largestMargin < margin then .refused .outOfRange
  else if (s.classes.get? cls).isNone then .refused .noSuch
  else
    let new := newTrunk dropA dropB cls cutoff margin .unplaced
    match s.trunk? t with
    | none => .event { s := s.addTrunk t new, work := [.trunkDeadlines [t]] }
    | some r =>
        if !r.window.isEmpty then .refused .inUse
        else .event { s := s.modTrunk t (·.renew new), work := [.trunkDeadlines [t]] }

/-- The record after a SET_CUTOFF, its phase set back to OPEN when it was CLOSING and the new close
time is after the clock (R50). -/
def Trunk.withCutoff (r : Trunk) (cutoff margin clock : Nat) : Trunk :=
  let r := { r with cutoff := cutoff, margin := margin }
  if r.phase = .closing && clock < r.closeTime then { r with phase := .opened } else r

/-- The rule of SET_CUTOFF (R50): a deadline already reached is taken in the event. -/
def setCutoff (t cutoff margin : Nat) (s : State) : Taken :=
  if !isTrunkNumber t || Config.lastSecond < cutoff || largestMargin < margin then
    .refused .outOfRange
  else match s.trunk? t with
    | none => .refused .noSuch
    | some r =>
        if r.phase = .due then .refused .wrongState
        else .event
          { s := s.modTrunk t (·.withCutoff cutoff margin s.clock.value)
            work := .trunkDeadlines [t] :: closing }

/-! ## DROP_TRUNK and DEPART (R51, R57) -/

/-- Whether freight stands in the trailer of trunk `t`: a LOADED booking, or a MISLOADED pallet with
location TRAILER(t) (R51). -/
def State.hasFreight (s : State) (t : Nat) (r : Trunk) : Bool :=
  r.window.any (·.standing = .loaded) ||
    s.pallets.any fun e => e.2.state = .misloaded && e.2.location = .trailer t

/-- The last steps of a departure (steps 2 and 3 of R51, 3 and 4 of R57): the trunk leaves its door and
its record is removed. A booking that the hand-over's attempt has made on the trunk meanwhile is flushed
first, with the departure's cause, so that it leaves the window as R61 and R62 require: DESIGN CHOICE,
log 40. -/
def removal (t : Nat) (cause : Cause) : List Work :=
  [.leaveDoor t, .flushBookings t cause, .removeTrunk t] ++ closing

/-- The rule of DROP_TRUNK (R51). -/
def dropTrunk (t : Nat) (s : State) : Taken :=
  if !isTrunkNumber t then .refused .outOfRange
  else match s.trunk? t with
    | none => .refused .noSuch
    | some r =>
        if s.hasFreight t r then .refused .inUse
        else
          .event
            { s := s
              deferDoor := r.door?
              work := .flushBookings t .cancelled :: removal t .cancelled }

/-- The rule of DEPART (R57). -/
def departTrunk (t : Nat) (s : State) : Taken :=
  if !isTrunkNumber t then .refused .outOfRange
  else match s.trunk? t with
    | none => .refused .noSuch
    | some r =>
        match r.placement with
        | .active d =>
            .event
              { s := s
                deferDoor := some d
                work := [.flushBookings t .departed, .freeLoaded t] ++ removal t .departed }
        | _ => .refused .wrongState

/-! ## PLACE (R53 to R55) -/

/-- The tests of R53; none when they are passed. -/
def placeTests (t d : Nat) (modeOk : Bool) (s : State) : Option Result :=
  if !isTrunkNumber t || !isDoorNumber d || !modeOk then some .outOfRange
  else match s.trunk? t with
    | none => some .noSuch
    | some r =>
        if (s.door d).slots = 0 then some .wrongState
        else if r.door?.any (· ≠ d) then some .wrongState
        else none

/-- A trunk becomes the active trunk of a door; the door's next trunk, when it is that trunk, is
promoted (R54). -/
def State.placeActive (s : State) (t d : Nat) : State :=
  (s.modTrunk t fun r => { r with placement := .active d }).modDoor d fun x =>
    if x.next = some t then { x with active := some t, next := none, nextPending := false }
    else { x with active := some t }

/-- The rule of PLACE in mode ACTIVE (R53, R54). -/
def placeActiveRule (t d : Nat) (modeOk : Bool) (s : State) : Taken :=
  match placeTests t d modeOk s with
  | some r => .refused r
  | none =>
      if (s.door d).active.isSome then .refused .inUse
      else .event
        { s := s.placeActive t d, work := [.pass d (some t), .attempt t] ++ closing }

/-- A trunk becomes the next trunk of a door (R55). -/
def State.placeNext (s : State) (t d : Nat) : State :=
  (s.modTrunk t fun r => { r with placement := .next d }).modDoor d fun x =>
    { x with next := some t, nextPending := true }

/-- Whether a pallet booked to trunk `u` holds a claim at door `d` or stands in its lane (R55). -/
def State.laneHolds (s : State) (u d : Nat) : Bool :=
  s.pallets.any fun e =>
    e.2.trunk = some u && (e.2.claimDoor = some d || e.2.location = .lane d)

/-- The rule of PLACE in mode NEXT (R53, R55). -/
def placeNextRule (t d : Nat) (s : State) : Taken :=
  match placeTests t d true s with
  | some r => .refused r
  | none =>
      let x := s.door d
      if x.next = some t then .done s none
      else if x.active = some t then .refused .wrongState
      else match x.next with
        | none => .event { s := s.placeNext t d, work := .pass d none :: closing }
        | some u =>
            if s.laneHolds u d then .refused .inUse
            else .event
              { s := (s.modTrunk u fun r => { r with placement := .unplaced }).placeNext t d
                work := .pass d none :: closing }

/-! ## READ_TRUNK (R59) -/

/-- The number of bookings of a standing. -/
def Trunk.standingCount (r : Trunk) (x : Standing) : Nat :=
  (r.window.filter fun b => b.standing = x).length

/-- The trunk record as READ_TRUNK returns it, with at most 16 entries from `start` on (R59). -/
def Trunk.report (r : Trunk) (start : Nat) : TrunkReport :=
  { dropA := r.dropA, dropB := r.dropB, cls := r.cls, cutoff := r.cutoff, margin := r.margin
    closeTime := r.closeTime, placement := r.placement, phase := r.phase
    bookedQuarters := r.bookedQuarters, bookedKg := r.bookedKg
    loadedQuarters := r.loadedQuarters, loadedKg := r.loadedKg
    windowLength := r.window.length
    unreleased := r.standingCount .unreleased
    released := r.standingCount .released
    loaded := r.standingCount .loaded
    heldLength := r.held.length
    openPosition := r.openPosition, fill := r.fill, topWeight := r.topWeight
    plannedWeight := r.plannedWeight, plannedMoment := r.plannedMoment, inFlight := r.inFlight
    entries := (r.window.drop start).take 16 }

/-- The rule of READ_TRUNK (R59). -/
def readTrunk (t start : Nat) (s : State) : Taken :=
  if !isTrunkNumber t || 127 < start then .refused .outOfRange
  else .done s (some (.trunk ((s.trunk? t).map fun r => r.report start)))

/-! ## The commands -/

/-- PUT_TRAILER_CLASS (R44). -/
def execPutTrailerClass (cls rows : Byte)
    (pitch front axle kingpinTare axleTare kingpinLimit axleLimit payload : BitVec 16)
    (s : State) : Host.Outcome State Fault Refusal :=
  takeRequest
    (.putTrailerClass cls rows pitch front axle kingpinTare axleTare kingpinLimit axleLimit payload)
    (putTrailerClass cls.toNat
      { rows := rows.toNat, pitch := pitch.toNat, front := front.toNat, axle := axle.toNat
        kingpinTare := kingpinTare.toNat, axleTare := axleTare.toNat
        kingpinLimit := kingpinLimit.toNat, axleLimit := axleLimit.toNat
        payload := payload.toNat }) s

/-- READ_TRAILER_CLASS (R45). -/
def execReadTrailerClass (cls : Byte) (s : State) : Host.Outcome State Fault Refusal :=
  takeRequest (.readTrailerClass cls) (readTrailerClass cls.toNat) s

/-- PUT_TRUNK (R47). A drop B of 0 is absent (R174). -/
def execPutTrunk (trunk dropA dropB cls : Byte) (cutoff : BitVec 32) (margin : BitVec 16)
    (s : State) : Host.Outcome State Fault Refusal :=
  takeRequest (.putTrunk trunk dropA dropB cls cutoff margin)
    (putTrunk trunk.toNat dropA.toNat (optionalNumber dropB) cls.toNat cutoff.toNat
      (marginOf margin)) s

/-- SET_CUTOFF (R50). -/
def execSetCutoff (trunk : Byte) (cutoff : BitVec 32) (margin : BitVec 16) (s : State) :
    Host.Outcome State Fault Refusal :=
  takeRequest (.setCutoff trunk cutoff margin)
    (setCutoff trunk.toNat cutoff.toNat margin.toNat) s

/-- DROP_TRUNK (R51). -/
def execDropTrunk (trunk : Byte) (s : State) : Host.Outcome State Fault Refusal :=
  takeRequest (.dropTrunk trunk) (dropTrunk trunk.toNat) s

/-- PLACE in mode ACTIVE (R54). A mode byte other than 0 is out of range (log 21). -/
def execPlaceActive (trunk door mode : Byte) (s : State) : Host.Outcome State Fault Refusal :=
  takeRequest (.placeActive trunk door mode)
    (placeActiveRule trunk.toNat door.toNat (mode = 0)) s

/-- PLACE in mode NEXT (R55). -/
def execPlaceNext (trunk door : Byte) (s : State) : Host.Outcome State Fault Refusal :=
  takeRequest (.placeNext trunk door) (placeNextRule trunk.toNat door.toNat) s

/-- DEPART (R57). -/
def execDepart (trunk : Byte) (s : State) : Host.Outcome State Fault Refusal :=
  takeRequest (.depart trunk) (departTrunk trunk.toNat) s

/-- READ_TRUNK (R59). -/
def execReadTrunk (trunk start : Byte) (s : State) : Host.Outcome State Fault Refusal :=
  takeRequest (.readTrunk trunk start) (readTrunk trunk.toNat start.toNat) s

end Sys2Proof.Machine
end

