-- ==== Sys2Proof/Machine/Dispatch.lean ====
section
/-! DEFINITION. The dispatch: one arm per command, each one call of its meaning. -/

namespace Sys2Proof.Machine

/-- The effect of a command on everything but the queue of waiting commands. -/
def exec (i : Instr) (s : State) : Host.Outcome State Fault Refusal :=
  match i with
  | .intakeScan src scan => Sys2Proof.Machine.execIntakeScan src scan s
  | .laneScan src scan => Sys2Proof.Machine.execLaneScan src scan s
  | .loadScan src scan => Sys2Proof.Machine.execLoadScan src scan s
  | .reworkScan src scan => Sys2Proof.Machine.execReworkScan src scan s
  | .badPlaceKindScan src kind scan => Sys2Proof.Machine.execBadPlaceKindScan src kind scan s
  | .signOn src mover => Sys2Proof.Machine.execSignOn src mover s
  | .signOff mover => Sys2Proof.Machine.execSignOff mover s
  | .accept mover move => Sys2Proof.Machine.execAccept mover move s
  | .decline mover move => Sys2Proof.Machine.execDecline mover move s
  | .abandon mover move => Sys2Proof.Machine.execAbandon mover move s
  | .acceptTimeout mover => Sys2Proof.Machine.execAcceptTimeout mover s
  | .doneTimeout mover => Sys2Proof.Machine.execDoneTimeout mover s
  | .clockAdvance => Sys2Proof.Machine.execClockAdvance s
  | .closeTimeReached trunk => Sys2Proof.Machine.execCloseTimeReached trunk s
  | .cutoffReached trunk => Sys2Proof.Machine.execCutoffReached trunk s
  | .forwardFrame port frame => Sys2Proof.Machine.execForwardFrame port frame s
  | .discardFrame port frame => Sys2Proof.Machine.execDiscardFrame port frame s
  | .transmissionEnd port hub unit => Sys2Proof.Machine.execTransmissionEnd port hub unit s
  | .pinReset hub unit => Sys2Proof.Machine.execPinReset hub unit s
  | .mgmtFrame src body => Sys2Proof.Machine.execMgmtFrame src body s
  | .badRequestCode code params => Sys2Proof.Machine.execBadRequestCode code params s
  | .readPallet label => Sys2Proof.Machine.execReadPallet label s
  | .probe kind scan => Sys2Proof.Machine.execProbe kind scan s
  | .putZone first last depot hold => Sys2Proof.Machine.execPutZone first last depot hold s
  | .dropZone first => Sys2Proof.Machine.execDropZone first s
  | .putDepotRow depot cls count t1 t2 t3 t4 => Sys2Proof.Machine.execPutDepotRow depot cls count t1 t2 t3 t4 s
  | .dropDepotRow depot cls => Sys2Proof.Machine.execDropDepotRow depot cls s
  | .copyBank => Sys2Proof.Machine.execCopyBank s
  | .clearBank => Sys2Proof.Machine.execClearBank s
  | .switchBank => Sys2Proof.Machine.execSwitchBank s
  | .readZone role zone => Sys2Proof.Machine.execReadZone role zone s
  | .readDepotRow role depot cls => Sys2Proof.Machine.execReadDepotRow role depot cls s
  | .startShift time => Sys2Proof.Machine.execStartShift time s
  | .stopShift => Sys2Proof.Machine.execStopShift s
  | .readClock => Sys2Proof.Machine.execReadClock s
  | .putTrailerClass cls rows pitch front axle kingpinTare axleTare kingpinLimit axleLimit payload => Sys2Proof.Machine.execPutTrailerClass cls rows pitch front axle kingpinTare axleTare kingpinLimit axleLimit payload s
  | .readTrailerClass cls => Sys2Proof.Machine.execReadTrailerClass cls s
  | .putTrunk trunk dropA dropB cls cutoff margin => Sys2Proof.Machine.execPutTrunk trunk dropA dropB cls cutoff margin s
  | .setCutoff trunk cutoff margin => Sys2Proof.Machine.execSetCutoff trunk cutoff margin s
  | .dropTrunk trunk => Sys2Proof.Machine.execDropTrunk trunk s
  | .placeActive trunk door mode => Sys2Proof.Machine.execPlaceActive trunk door mode s
  | .placeNext trunk door => Sys2Proof.Machine.execPlaceNext trunk door s
  | .depart trunk => Sys2Proof.Machine.execDepart trunk s
  | .setDoor door slots reserve depth burst => Sys2Proof.Machine.execSetDoor door slots reserve depth burst s
  | .readTrunk trunk start => Sys2Proof.Machine.execReadTrunk trunk start s
  | .readDoor door => Sys2Proof.Machine.execReadDoor door s
  | .readMover mover => Sys2Proof.Machine.execReadMover mover s
  | .forceRelease door => Sys2Proof.Machine.execForceRelease door s
  | .removePallet label => Sys2Proof.Machine.execRemovePallet label s
  | .clearNotice set => Sys2Proof.Machine.execClearNotice set s
  | .testNotice value => Sys2Proof.Machine.execTestNotice value s
  | .setNotice set enableA enableB bothWays keepAll => Sys2Proof.Machine.execSetNotice set enableA enableB bothWays keepAll s
  | .setChannel channel presence address => Sys2Proof.Machine.execSetChannel channel presence address s
  | .readNotices => Sys2Proof.Machine.execReadNotices s
  | .setLimits repeatWindow acceptTimeout doneTimeout allowance threshold highWater => Sys2Proof.Machine.execSetLimits repeatWindow acceptTimeout doneTimeout allowance threshold highWater s
  | .setOutputs address => Sys2Proof.Machine.execSetOutputs address s
  | .readSettings => Sys2Proof.Machine.execReadSettings s
  | .restartFull kind => Sys2Proof.Machine.execRestartFull kind s
  | .restartFloor => Sys2Proof.Machine.execRestartFloor s

end Sys2Proof.Machine
end

