-- ==== Sys2Proof/WellFormed.lean ====
section
/-! DEFINITION. Which commands can stand for an event: the operand ranges the fields' own widths do not give. -/

namespace Sys2Proof

/-- A byte that numbers a mover (R100). -/
def Byte.isMover (b : Byte) : Bool := 1 ≤ b.toNat && b.toNat ≤ 32

/-- A byte that numbers a trunk (R46). -/
def Byte.isTrunk (b : Byte) : Bool := 1 ≤ b.toNat && b.toNat ≤ 128

/-- A command that can stand for an event. The checks are: a deadline names a mover or a trunk that
exists as a number; BAD_PLACE_KIND_SCAN has a kind code outside the four; FORWARD_FRAME is not of a
frame with a wrong check sequence; BAD_REQUEST_CODE is of an element that is no request; PLACE_ACTIVE
and RESTART_FULL do not carry the other row's code. Every field of the rest may hold any value, since
the rules answer each (chapter 10). -/
def Instr.wf : Instr → Bool
  | .badPlaceKindScan _ kind _ => 4 ≤ kind.toNat
  | .acceptTimeout mover => Byte.isMover mover
  | .doneTimeout mover => Byte.isMover mover
  | .closeTimeReached trunk => Byte.isTrunk trunk
  | .cutoffReached trunk => Byte.isTrunk trunk
  | .forwardFrame _ frame => frame.checkOk
  | .badRequestCode code params =>
      params.length < 256 && decide (decodeRequest code params = .badRequestCode code params)
  | .placeActive _ _ mode => mode ≠ 1
  | .restartFull kind => kind ≠ 1
  | _ => true

end Sys2Proof
end

