-- ==== Sys2Proof/Laws/PerInstr.lean ====
section
/-! SUPPORT. The family `Request`: a well-formed request decodes from the element it is sent as; one lemma per constructor. -/

namespace Sys2Proof

/-! ## Bytes of a field, put together again -/

theorem cat2_bytes (x : BitVec 16) : cat2 (x.extractLsb' 8 8) (x.extractLsb' 0 8) = x := by
  unfold cat2
  rw [BitVec.extractLsb'_append_extractLsb'_eq_extractLsb' (by omega)]
  exact BitVec.extractLsb'_eq_self

theorem cat3_bytes (x : BitVec 24) :
    cat3 (x.extractLsb' 16 8) (x.extractLsb' 8 8) (x.extractLsb' 0 8) = x := by
  unfold cat3
  iterate 2 rw [BitVec.extractLsb'_append_extractLsb'_eq_extractLsb' (by omega)]
  exact BitVec.extractLsb'_eq_self

theorem cat4_bytes (x : BitVec 32) :
    cat4 (x.extractLsb' 24 8) (x.extractLsb' 16 8) (x.extractLsb' 8 8) (x.extractLsb' 0 8) = x := by
  unfold cat4
  iterate 3 rw [BitVec.extractLsb'_append_extractLsb'_eq_extractLsb' (by omega)]
  exact BitVec.extractLsb'_eq_self

theorem cat6_bytes (x : BitVec 48) :
    cat6 (x.extractLsb' 40 8) (x.extractLsb' 32 8) (x.extractLsb' 24 8) (x.extractLsb' 16 8)
      (x.extractLsb' 8 8) (x.extractLsb' 0 8) = x := by
  unfold cat6
  iterate 5 rw [BitVec.extractLsb'_append_extractLsb'_eq_extractLsb' (by omega)]
  exact BitVec.extractLsb'_eq_self

/-- A scan reads back from the 16 bytes it is sent as (11.2). -/
theorem scanOf_scanBytes (kind : Byte) (scan : ScanFields) : scanOf (scanBytes kind scan) = scan := by
  show ScanFields.mk scan.number (cat6 _ _ _ _ _ _) (cat3 _ _ _) scan.cls scan.type (cat2 _ _) = scan
  have hl := cat6_bytes scan.label
  have hz := cat3_bytes scan.zone
  have hk := cat2_bytes scan.kg
  obtain ⟨number, label, zone, cls, type, kg⟩ := scan
  rw [ScanFields.mk.injEq]
  exact ⟨rfl, hl, hz, rfl, rfl, hk⟩

end Sys2Proof

namespace Sys2Proof.Laws.Request

/-- A well-formed command that is sent as an element decodes from it. -/
def Statement (i : Instr) : Prop :=
  i.wf = true → ∀ code params, encodeRequest i = some (code, params) → decodeRequest code params = i

theorem intakeScan (src : Address) (scan : ScanFields) : Statement (.intakeScan src scan) := by
  intro _ _ _ e
  cases e

theorem laneScan (src : Address) (scan : ScanFields) : Statement (.laneScan src scan) := by
  intro _ _ _ e
  cases e

theorem loadScan (src : Address) (scan : ScanFields) : Statement (.loadScan src scan) := by
  intro _ _ _ e
  cases e

theorem reworkScan (src : Address) (scan : ScanFields) : Statement (.reworkScan src scan) := by
  intro _ _ _ e
  cases e

theorem badPlaceKindScan (src : Address) (kind : Byte) (scan : ScanFields) :
    Statement (.badPlaceKindScan src kind scan) := by
  intro _ _ _ e
  cases e

theorem signOn (src : Address) (mover : Byte) : Statement (.signOn src mover) := by
  intro _ _ _ e
  cases e

theorem signOff (mover : Byte) : Statement (.signOff mover) := by
  intro _ _ _ e
  cases e

theorem accept (mover : Byte) (move : BitVec 16) : Statement (.accept mover move) := by
  intro _ _ _ e
  cases e

theorem decline (mover : Byte) (move : BitVec 16) : Statement (.decline mover move) := by
  intro _ _ _ e
  cases e

theorem abandon (mover : Byte) (move : BitVec 16) : Statement (.abandon mover move) := by
  intro _ _ _ e
  cases e

theorem acceptTimeout (mover : Byte) : Statement (.acceptTimeout mover) := by
  intro _ _ _ e
  cases e

theorem doneTimeout (mover : Byte) : Statement (.doneTimeout mover) := by
  intro _ _ _ e
  cases e

theorem clockAdvance : Statement (.clockAdvance) := by
  intro _ _ _ e
  cases e

theorem closeTimeReached (trunk : Byte) : Statement (.closeTimeReached trunk) := by
  intro _ _ _ e
  cases e

theorem cutoffReached (trunk : Byte) : Statement (.cutoffReached trunk) := by
  intro _ _ _ e
  cases e

theorem forwardFrame (port : Port) (frame : RawFrame) : Statement (.forwardFrame port frame) := by
  intro _ _ _ e
  cases e

theorem discardFrame (port : Port) (frame : RawFrame) : Statement (.discardFrame port frame) := by
  intro _ _ _ e
  cases e

theorem transmissionEnd (port : Port) (hub : Byte) (unit : BitVec 4) :
    Statement (.transmissionEnd port hub unit) := by
  intro _ _ _ e
  cases e

theorem pinReset (hub : Byte) (unit : BitVec 4) : Statement (.pinReset hub unit) := by
  intro _ _ _ e
  cases e

theorem mgmtFrame (src : Address) (body : List Byte) : Statement (.mgmtFrame src body) := by
  intro _ _ _ e
  cases e

theorem badRequestCode (code : Byte) (params : List Byte) :
    Statement (.badRequestCode code params) := by
  intro h code params e
  cases e
  simp only [Instr.wf, Bool.and_eq_true, decide_eq_true_eq] at h
  exact h.2

theorem readPallet (label : Label) : Statement (.readPallet label) := by
  intro h code params e
  cases e
  show Instr.readPallet (cat6 _ _ _ _ _ _) = _
  rw [cat6_bytes label]

theorem probe (kind : Byte) (scan : ScanFields) : Statement (.probe kind scan) := by
  intro h code params e
  cases e
  show Instr.probe kind (scanOf (scanBytes kind scan)) = _
  rw [scanOf_scanBytes]

theorem putZone (first : ZoneCode) (last : ZoneCode) (depot : Byte) (hold : Byte) :
    Statement (.putZone first last depot hold) := by
  intro h code params e
  cases e
  show Instr.putZone (cat3 _ _ _) (cat3 _ _ _) depot hold = _
  rw [cat3_bytes first, cat3_bytes last]

theorem dropZone (first : ZoneCode) : Statement (.dropZone first) := by
  intro h code params e
  cases e
  show Instr.dropZone (cat3 _ _ _) = _
  rw [cat3_bytes first]

theorem putDepotRow (depot : Byte) (cls : Byte) (count : Byte) (t1 : Byte) (t2 : Byte) (t3 : Byte) (t4 : Byte) :
    Statement (.putDepotRow depot cls count t1 t2 t3 t4) := by
  intro _ _ _ e
  cases e
  rfl

theorem dropDepotRow (depot : Byte) (cls : Byte) : Statement (.dropDepotRow depot cls) := by
  intro _ _ _ e
  cases e
  rfl

theorem copyBank : Statement (.copyBank) := by
  intro _ _ _ e
  cases e
  rfl

theorem clearBank : Statement (.clearBank) := by
  intro _ _ _ e
  cases e
  rfl

theorem switchBank : Statement (.switchBank) := by
  intro _ _ _ e
  cases e
  rfl

theorem readZone (role : Byte) (zone : ZoneCode) : Statement (.readZone role zone) := by
  intro h code params e
  cases e
  show Instr.readZone role (cat3 _ _ _) = _
  rw [cat3_bytes zone]

theorem readDepotRow (role : Byte) (depot : Byte) (cls : Byte) :
    Statement (.readDepotRow role depot cls) := by
  intro _ _ _ e
  cases e
  rfl

theorem startShift (time : BitVec 32) : Statement (.startShift time) := by
  intro h code params e
  cases e
  show Instr.startShift (cat4 _ _ _ _) = _
  rw [cat4_bytes time]

theorem stopShift : Statement (.stopShift) := by
  intro _ _ _ e
  cases e
  rfl

theorem readClock : Statement (.readClock) := by
  intro _ _ _ e
  cases e
  rfl

theorem putTrailerClass (cls : Byte) (rows : Byte) (pitch : BitVec 16) (front : BitVec 16) (axle : BitVec 16) (kingpinTare : BitVec 16) (axleTare : BitVec 16) (kingpinLimit : BitVec 16) (axleLimit : BitVec 16) (payload : BitVec 16) :
    Statement (.putTrailerClass cls rows pitch front axle kingpinTare axleTare kingpinLimit axleLimit payload) := by
  intro h code params e
  cases e
  show Instr.putTrailerClass cls rows (cat2 _ _) (cat2 _ _) (cat2 _ _) (cat2 _ _) (cat2 _ _) (cat2 _ _)
    (cat2 _ _) (cat2 _ _) = _
  rw [cat2_bytes pitch, cat2_bytes front, cat2_bytes axle, cat2_bytes kingpinTare, cat2_bytes axleTare,
    cat2_bytes kingpinLimit, cat2_bytes axleLimit, cat2_bytes payload]

theorem readTrailerClass (cls : Byte) : Statement (.readTrailerClass cls) := by
  intro _ _ _ e
  cases e
  rfl

theorem putTrunk (trunk : Byte) (dropA : Byte) (dropB : Byte) (cls : Byte) (cutoff : BitVec 32) (margin : BitVec 16) :
    Statement (.putTrunk trunk dropA dropB cls cutoff margin) := by
  intro h code params e
  cases e
  show Instr.putTrunk trunk dropA dropB cls (cat4 _ _ _ _) (cat2 _ _) = _
  rw [cat4_bytes cutoff, cat2_bytes margin]

theorem setCutoff (trunk : Byte) (cutoff : BitVec 32) (margin : BitVec 16) :
    Statement (.setCutoff trunk cutoff margin) := by
  intro h code params e
  cases e
  show Instr.setCutoff trunk (cat4 _ _ _ _) (cat2 _ _) = _
  rw [cat4_bytes cutoff, cat2_bytes margin]

theorem dropTrunk (trunk : Byte) : Statement (.dropTrunk trunk) := by
  intro _ _ _ e
  cases e
  rfl

theorem placeActive (trunk : Byte) (door : Byte) (mode : Byte) :
    Statement (.placeActive trunk door mode) := by
  intro h code params e
  cases e
  have hm : mode ≠ 1 := by simpa [Instr.wf] using h
  show (if mode = 1 then Instr.placeNext trunk door else .placeActive trunk door mode) = _
  rw [if_neg hm]

theorem placeNext (trunk : Byte) (door : Byte) : Statement (.placeNext trunk door) := by
  intro _ _ _ e
  cases e
  rfl

theorem depart (trunk : Byte) : Statement (.depart trunk) := by
  intro _ _ _ e
  cases e
  rfl

theorem setDoor (door : Byte) (slots : Byte) (reserve : Byte) (depth : Byte) (burst : Byte) :
    Statement (.setDoor door slots reserve depth burst) := by
  intro _ _ _ e
  cases e
  rfl

theorem readTrunk (trunk : Byte) (start : Byte) : Statement (.readTrunk trunk start) := by
  intro _ _ _ e
  cases e
  rfl

theorem readDoor (door : Byte) : Statement (.readDoor door) := by
  intro _ _ _ e
  cases e
  rfl

theorem readMover (mover : Byte) : Statement (.readMover mover) := by
  intro _ _ _ e
  cases e
  rfl

theorem forceRelease (door : Byte) : Statement (.forceRelease door) := by
  intro _ _ _ e
  cases e
  rfl

theorem removePallet (label : Label) : Statement (.removePallet label) := by
  intro h code params e
  cases e
  show Instr.removePallet (cat6 _ _ _ _ _ _) = _
  rw [cat6_bytes label]

theorem clearNotice (set : BitVec 16) : Statement (.clearNotice set) := by
  intro h code params e
  cases e
  show Instr.clearNotice (cat2 _ _) = _
  rw [cat2_bytes set]

theorem testNotice (value : BitVec 16) : Statement (.testNotice value) := by
  intro h code params e
  cases e
  show Instr.testNotice (cat2 _ _) = _
  rw [cat2_bytes value]

theorem setNotice (set : BitVec 16) (enableA : Byte) (enableB : Byte) (bothWays : Byte) (keepAll : Byte) :
    Statement (.setNotice set enableA enableB bothWays keepAll) := by
  intro h code params e
  cases e
  show Instr.setNotice (cat2 _ _) enableA enableB bothWays keepAll = _
  rw [cat2_bytes set]

theorem setChannel (channel : Byte) (presence : Byte) (address : Address) :
    Statement (.setChannel channel presence address) := by
  intro h code params e
  cases e
  show Instr.setChannel channel presence (cat6 _ _ _ _ _ _) = _
  rw [cat6_bytes address]

theorem readNotices : Statement (.readNotices) := by
  intro _ _ _ e
  cases e
  rfl

theorem setLimits (repeatWindow : Byte) (acceptTimeout : Byte) (doneTimeout : BitVec 16) (allowance : BitVec 16) (threshold : BitVec 16) (highWater : BitVec 16) :
    Statement (.setLimits repeatWindow acceptTimeout doneTimeout allowance threshold highWater) := by
  intro h code params e
  cases e
  show Instr.setLimits repeatWindow acceptTimeout (cat2 _ _) (cat2 _ _) (cat2 _ _) (cat2 _ _) = _
  rw [cat2_bytes doneTimeout, cat2_bytes allowance, cat2_bytes threshold, cat2_bytes highWater]

theorem setOutputs (address : Address) : Statement (.setOutputs address) := by
  intro h code params e
  cases e
  show Instr.setOutputs (cat6 _ _ _ _ _ _) = _
  rw [cat6_bytes address]

theorem readSettings : Statement (.readSettings) := by
  intro _ _ _ e
  cases e
  rfl

theorem restartFull (kind : Byte) : Statement (.restartFull kind) := by
  intro h code params e
  cases e
  have hk : kind ≠ 1 := by simpa [Instr.wf] using h
  show (if kind = 1 then Instr.restartFloor else .restartFull kind) = _
  rw [if_neg hk]

theorem restartFloor : Statement (.restartFloor) := by
  intro _ _ _ e
  cases e
  rfl

end Sys2Proof.Laws.Request
end

