-- ==== Sys2Proof/Machine/Layout.lean ====
section
/-! DEFINITION. The layouts of what the part sends (chapter 11): codes, records, bodies and own frames as bytes, from the destination address to the padding and the check sequence that the port appends. -/

namespace Sys2Proof.Machine

/-! ## Numbers and codes (R174, 11.3) -/

/-- A number as `k` big-endian bytes. -/
def num (k n : Nat) : List Byte := bytesOf (BitVec.ofNat (8 * k) n) k

/-- A signed number as four bytes in two's complement. -/
def signed (z : Int) : List Byte := bytesOf (BitVec.ofInt 32 z) 4

/-- A number as one byte. -/
def one (n : Nat) : Byte := BitVec.ofNat 8 n

/-- A truth value as one byte of a sent frame: 1 for true, 0 for false (the code of true: DEDUCED,
log 44). -/
def flag (b : Bool) : Byte := if b then 1 else 0

/-- An optional number whose values start at 1 (R174). -/
def opt (n : Option Nat) : Byte := one (n.getD 0)

/-- An optional number whose values start at 0 (R174). -/
def optZero (n : Option Nat) : Byte := one (n.getD 255)

/-- A position and its row (R43, R174). -/
def positionBytes (p : Option Nat) : List Byte := [optZero p, optZero (p.map (· / 2))]

/-- An address; zero bytes when it is absent, for which R174 and 11.4 give no code (DESIGN CHOICE,
log 51). -/
def addressBytes (a : Option Address) : List Byte := bytesOf (a.getD 0) 6

/-- A location's kind and number (R174). -/
def Location.bytes : Location → List Byte
  | .apron n => [1, one n]
  | .lane n => [2, one n]
  | .trailer n => [3, one n]
  | .rework => [4, 0]

/-- The code of a verdict result, 1 to 19 in the order of the table of R20. -/
def VerdictResult.code : VerdictResult → Nat
  | .booked => 1
  | .held => 2
  | .staged => 3
  | .loaded => 4
  | .atRework => 5
  | .repeated => 6
  | .badPlace => 7
  | .badLabel => 8
  | .tableFull => 9
  | .noRoute => 10
  | .zoneHeld => 11
  | .noTrunk => 12
  | .unsafeWeight => 13
  | .duplicateLabel => 14
  | .mislane => 15
  | .misload => 16
  | .lateLoad => 17
  | .unknownPallet => 18
  | .noBooking => 19

/-- The code of a pallet state. -/
def PalletState.code : PalletState → Nat
  | .held => 1
  | .laneBound => 2
  | .staged => 3
  | .loadBound => 4
  | .loaded => 5
  | .misloaded => 6
  | .exception => 7
  | .atRework => 8

/-- The code of an exception reason. -/
def Reason.code : Reason → Nat
  | .noRoute => 1
  | .zoneHeld => 2
  | .noTrunk => 3
  | .unsafeWeight => 4
  | .rebookFailed => 5
  | .stray => 6

/-- The code of a move kind. -/
def MoveKind.code : MoveKind → Nat
  | .put => 1
  | .shift => 2
  | .load => 3
  | .rework => 4

/-- The code of a move state. -/
def MoveState.code : MoveState → Nat
  | .queued => 1
  | .offered => 2
  | .accepted => 3

/-- The code of a standing. -/
def Standing.code : Standing → Nat
  | .unreleased => 1
  | .released => 2
  | .loaded => 3

/-- The code of a phase. -/
def Phase.code : Phase → Nat
  | .opened => 1
  | .closing => 2
  | .due => 3

/-- The codes of a placement and its door. -/
def Placement.bytes : Placement → List Byte
  | .unplaced => [0, 0]
  | .next d => [1, one d]
  | .active d => [2, one d]

/-- The code of a mover state. -/
def MoverState.code : MoverState → Nat
  | .off => 0
  | .free => 1
  | .offered => 2
  | .busy => 3
  | .silent => 4

/-- The code of a request result. -/
def Result.code : Result → Nat
  | .done => 0
  | .badRequest => 1
  | .noSuch => 2
  | .outOfRange => 3
  | .overlap => 4
  | .tableFull => 5
  | .inUse => 6
  | .wrongState => 7
  | .notRun => 8

/-- The code of a drop; 0 is absent. -/
def dropCode : Option Drop → Byte
  | none => 0
  | some .a => 1
  | some .b => 2

/-- The number of a bank. -/
def BankNumber.code : BankNumber → Nat
  | .bank0 => 0
  | .bank1 => 1

/-- The seven flag bits (11.2). -/
def PalletFlags.code (f : PalletFlags) : Nat :=
  f.overweight.toNat + 2 * f.fallback.toNat + 4 * f.spill.toNat + 8 * f.unplanned.toNat +
    16 * f.forced.toNat + 32 * f.noFit.toNat + 64 * f.mislaned.toNat

/-- The kind code of a subject (11.2). -/
def Subject.kind : Subject → Byte
  | .door _ => 1
  | .queue _ => 2
  | .trunk _ => 3
  | .mover _ => 4
  | .label _ => 5
  | .bank _ => 6
  | .count _ => 7
  | .test _ => 8

/-- The six value bytes of a subject (11.2). -/
def Subject.value : Subject → List Byte
  | .door n => num 6 n
  | .queue n => num 6 n
  | .trunk n => num 6 n
  | .mover n => num 6 n
  | .label l => bytesOf l 6
  | .bank b => num 6 b.code
  | .count n => num 6 n
  | .test n => num 6 n

/-- The kind of an optional subject; 0 is absent. -/
def subjectKind (x : Option Subject) : Byte := (x.map Subject.kind).getD 0

/-- The value of an optional subject, zero when it is absent. -/
def subjectValue (x : Option Subject) : List Byte := (x.map Subject.value).getD (num 6 0)

/-! ## Records (R175) -/

/-- The verdict body (11.2). -/
def Verdict.bytes (v : Verdict) : List Byte :=
  scanBytes v.echoKind v.echo ++
    [one v.result.code, opt (v.state.map PalletState.code), opt v.trunk, dropCode v.drop,
      opt v.door, one v.candidate] ++
    num 2 v.flags.code ++ positionBytes v.position ++ signed v.kingpin ++ num 4 v.axle

/-- The move fields of the pallet record (11.4). -/
def moveBytes : Option Move → List Byte
  | none => List.replicate 11 0
  | some m =>
      num 2 m.number ++ [one m.kind.code] ++ m.source.bytes ++ m.destination.bytes ++
        [one m.queue, one m.state.code, opt m.mover, flag m.overdue]

/-- The pallet record (11.4). -/
def palletBytes : Option Pallet → List Byte
  | none => List.replicate 52 0
  | some p =>
      [1] ++ bytesOf p.label 6 ++ bytesOf p.zone 3 ++
        [one p.cls.code, one p.type.code, one p.quarters] ++ num 2 p.typeLimit ++
        num 2 p.measured ++ num 2 p.bookingKg ++ [one p.intakeDoor] ++ num 4 p.intakeTime ++
        [opt p.depot, one p.state.code, opt (p.reason.map Reason.code), opt p.trunk,
          dropCode p.drop, opt p.claimDoor] ++ p.location.bytes ++ moveBytes p.move ++
        [optZero p.position, one p.excluded.length] ++
        ((p.excluded.map one) ++ List.replicate 4 0).take 4 ++ num 2 p.flags.code ++ [0]

/-- The zone item of READ_ZONE. An absent entry's fields are zero; the bank and the count are carried
all the same (R36; log 37). -/
def zoneBytes (bank : BankNumber) (count : Nat) (e : Option ZoneEntry) : List Byte :=
  [one bank.code] ++ num 2 count ++
    match e with
    | none => List.replicate 9 0
    | some e => [1] ++ decimalBytes e.first ++ decimalBytes e.last ++ [one e.depot, flag e.hold]
where
  /-- A zone number as six packed digits (R174). -/
  decimalBytes (n : Nat) : List Byte :=
    [one (n / 100000 % 10 * 16 + n / 10000 % 10), one (n / 1000 % 10 * 16 + n / 100 % 10),
      one (n / 10 % 10 * 16 + n % 10)]

/-- The row item of READ_DEPOT_ROW; the bank is carried for an empty slot too (R37; log 37). -/
def rowBytes (bank : BankNumber) (row : Option (List Nat)) : List Byte :=
  one bank.code ::
    match row with
    | none => List.replicate 6 0
    | some ts => [1, one ts.length] ++ ((ts.map one) ++ List.replicate 4 0).take 4

/-- The trailer class record (R45). -/
def classBytes : Option (TrailerClass × Nat) → List Byte
  | none => List.replicate 19 0
  | some (c, n) =>
      [1, one c.rows] ++ num 2 c.pitch ++ num 2 c.front ++ num 2 c.axle ++ num 2 c.kingpinTare ++
        num 2 c.axleTare ++ num 2 c.kingpinLimit ++ num 2 c.axleLimit ++ num 2 c.payload ++ [one n]

/-- A window entry (11.4). -/
def Booking.bytes (b : Booking) : List Byte :=
  bytesOf b.label 6 ++ [dropCode (some b.drop), one b.quarters] ++ num 2 b.kg ++ num 4 b.seq ++
    [one b.standing.code, 0]

/-- The trunk record (11.4). -/
def trunkBytes : Option TrunkReport → List Byte
  | none => List.replicate 42 0
  | some t =>
      [1, one t.dropA, opt t.dropB, one t.cls] ++ num 4 t.cutoff ++ num 2 t.margin ++
        num 4 t.closeTime ++ t.placement.bytes ++ [one t.phase.code, one t.bookedQuarters] ++
        num 2 t.bookedKg ++ [one t.loadedQuarters] ++ num 2 t.loadedKg ++
        [one t.windowLength, one t.unreleased, one t.released, one t.loaded, one t.heldLength,
          optZero t.openPosition, one t.fill] ++ num 2 t.topWeight ++ num 4 t.plannedWeight ++
        num 4 t.plannedMoment ++ [one t.inFlight, one t.entries.length] ++
        t.entries.flatMap Booking.bytes

/-- The door record (R60). -/
def doorBytes (d : DoorReport) : List Byte :=
  [one d.slots, one d.reserve, one d.depth, one d.burst, opt d.active, opt d.next,
    flag d.nextPending, one d.claims, flag d.hold] ++ num 2 d.queueLength

/-- The mover record (R120). An absent move number is 0 (R174); an absent label is sent as zero bytes,
for which R174 and 11.4 give no code (DESIGN CHOICE, log 51), as is an absent address. -/
def moverBytes (m : MoverReport) : List Byte :=
  [one m.state.code, flag m.address.isSome] ++ addressBytes m.address ++ num 2 (m.move.getD 0) ++
    bytesOf (m.label.getD 0) 6 ++ [one m.place, one m.freeLength] ++ num 2 m.queue0Length

/-- The release report (R132). -/
def releaseBytes : Option ReleaseReport → List Byte
  | none => num 6 0 ++ positionBytes none ++ num 8 0
  | some r => bytesOf r.label 6 ++ positionBytes (some r.position) ++ signed r.kingpin ++ num 4 r.axle

/-- One condition of READ_NOTICES. -/
def Condition.bytes (c : Condition) : List Byte :=
  [flag c.raw, flag c.status, subjectKind c.subject] ++ subjectValue c.subject ++
    [flag c.enableA, flag c.enableB, flag c.bothWays]

/-- The notices record (R159); an absent channel address is sent as zero bytes (log 51). -/
def noticesBytes (n : NoticesReport) : List Byte :=
  n.conditions.flatMap Condition.bytes ++ [flag n.keepAll, flag n.channelA.isSome] ++
    addressBytes n.channelA ++ [flag n.channelB.isSome] ++ addressBytes n.channelB

/-- The own source address: a fixed part of four bytes, the hub number, the unit number (R165). -/
def ownAddress (hub : Byte) (unit : BitVec 4) : List Byte :=
  [0x02, 0x4E, 0x5A, 0x00, hub, unit.zeroExtend 8]

/-- The settings record (R172). -/
def settingsBytes (x : SettingsReport) : List Byte :=
  [one x.limits.repeatWindow, one x.limits.acceptTimeout] ++ num 2 x.limits.doneTimeout ++
    num 2 x.limits.allowance ++ num 2 x.limits.threshold ++ num 2 x.limits.highWater ++
    bytesOf x.verdictAddress 6 ++ [x.hub, x.unit.zeroExtend 8] ++ ownAddress x.hub x.unit ++
    [one x.frames]

/-- A record as bytes. -/
def Record.bytes : Record → List Byte
  | .pallet p => palletBytes p
  | .verdict v => v.bytes
  | .zone bank n e => zoneBytes bank n e
  | .row bank ts => rowBytes bank ts
  | .clock running value => flag running :: num 4 value
  | .trailerClass c => classBytes c
  | .trunk x => trunkBytes x
  | .door d => doorBytes d
  | .mover m => moverBytes m
  | .release r => releaseBytes r
  | .notices n => noticesBytes n
  | .settings x => settingsBytes x

/-! ## Bodies and own frames -/

/-- The directive body (11.2). -/
def Directive.bytes : Directive → List Byte
  | .offer m n kind l source destination trunk position =>
      [1, one m] ++ num 2 n ++ [one kind.code] ++ bytesOf l 6 ++ source.bytes ++
        destination.bytes ++ [opt trunk] ++ positionBytes position
  | .cancel m n => [2, one m] ++ num 2 n ++ List.replicate 12 0 ++ [0xFF, 0xFF]
  | .redirect m n kind l destination =>
      [3, one m] ++ num 2 n ++ [one kind.code] ++ bytesOf l 6 ++ [0, 0] ++ destination.bytes ++
        [0, 0xFF, 0xFF]

/-- The reply body (11.4). -/
def Reply.bytes (r : Reply) : List Byte :=
  bytesOf r.tag 2 ++ [one r.status.code, one r.results.length] ++
    r.results.map (fun x => one x.code) ++
    r.records.flatMap fun x => one x.1 :: (num 2 x.2.size ++ x.2.bytes)

/-- The notice body (11.2). -/
def Notice.bytes (n : Notice) : List Byte :=
  [one n.condition.number, subjectKind n.subject, flag n.raw, 0] ++ subjectValue n.subject ++
    num 4 n.time

/-- The frame kind of a body (11.1). -/
def OwnBody.kind : OwnBody → Byte
  | .verdict _ => 4
  | .directive _ => 5
  | .reply _ => 6
  | .notice _ => 7

/-- A body as bytes. -/
def OwnBody.bytes : OwnBody → List Byte
  | .verdict v => v.bytes
  | .directive d => d.bytes
  | .reply r => r.bytes
  | .notice n => n.bytes

/-- The shortest Ethernet frame without its check sequence, in bytes. PRESUMED: log 13. -/
def ethernetMinimum : Nat := 60

/-- An own frame as bytes from the destination address to the padding (11.1, R174). -/
def OwnFrame.bytes (f : OwnFrame) : List Byte :=
  let unit := f.unit.zeroExtend 8
  let bs := bytesOf f.dest 6 ++ ownAddress f.hub f.unit ++ [erwazType.1, erwazType.2] ++
    [f.hub, unit, f.body.kind, 0] ++ f.body.bytes
  bs ++ List.replicate (ethernetMinimum - bs.length) 0

/-- A frame in transmission as bytes: an own frame with the check sequence that the port appends (R174;
log 14), a forwarded frame as it was received, its check sequence among its bytes (R162). -/
def TxFrame.bytes : TxFrame → List Byte
  | .own f => f.bytes ++ checkSequence f.bytes
  | .pass bs => bs

end Sys2Proof.Machine
end

