-- ==== Sys2Proof/Safety.lean ====
section
/-! DEFINITION. What a safe state is, in the terms the statements use: the capacities that chapters 1, 2, 3 and 10 give the part's lists, the forms its tables are held in, and the clock's range. -/

namespace Sys2Proof

/-- The commands that come from the floor: scans and terminal frames. -/
def Instr.fromFloor : Instr → Bool
  | .intakeScan _ _ => true
  | .laneScan _ _ => true
  | .loadScan _ _ => true
  | .reworkScan _ _ => true
  | .badPlaceKindScan _ _ _ => true
  | .signOn _ _ => true
  | .signOff _ => true
  | .accept _ _ => true
  | .decline _ _ => true
  | .abandon _ _ => true
  | _ => false

/-- The commands that are not matching frames or requests: they go on while a restart is pending
(R173). -/
def Instr.goesOn : Instr → Bool
  | .acceptTimeout _ => true
  | .doneTimeout _ => true
  | .clockAdvance => true
  | .closeTimeReached _ => true
  | .cutoffReached _ => true
  | .forwardFrame _ _ => true
  | .discardFrame _ _ => true
  | .transmissionEnd _ _ _ => true
  | .pinReset _ _ => true
  | _ => false

end Sys2Proof

namespace Sys2Proof.Machine

/-- A transmit side within its capacities: 64 pass-through and 256 own frames (R160). -/
def PortState.within (p : PortState) : Prop :=
  p.pass.length ≤ Config.passCapacity ∧ p.own.length ≤ Config.ownCapacity

/-- A port that holds a frame in either queue is transmitting one (R164). -/
def PortState.busyWhenQueued (p : PortState) : Prop :=
  p.sending = none → p.own = [] ∧ p.pass = []


/-- A clock within a shift day (R38). -/
def Clock.within (c : Clock) : Prop := c.value ≤ Config.lastSecond

/-- A frame in progress with 1 to 32 requests left (R166, R168). -/
def MgmtFrame.within (f : MgmtFrame) : Prop :=
  1 ≤ f.left.length ∧ f.left.length ≤ Config.requestCapacity

/-- A pallet table in its one form and within its capacity of 4096 records (R8). -/
def palletsWithin (t : Table Pallet) : Prop :=
  t.wf = true ∧ t.length ≤ Config.palletCapacity

/-- A table in its one form whose numbers stand from `lo` to `hi`. -/
def Table.keysIn {α : Type} (t : Table α) (lo hi : Nat) : Prop :=
  t.wf = true ∧ ∀ e ∈ t, lo ≤ e.1 ∧ e.1 ≤ hi

/-- A bank as R23 and R24 hold it: at most 2048 zone entries in ascending order, of which no two share
a zone, and rows by slot. -/
structure Bank.within (b : Bank) : Prop where
  count : b.zones.length ≤ Config.zoneCapacity
  ranges : ∀ e ∈ b.zones, e.first ≤ e.last
  apart : b.zones.Pairwise fun e x => e.last < x.first
  rows : Table.keysIn b.rows 1 1018

/-- Rotation lists that each hold the 49 queue numbers once (R117). -/
def State.rotationWhole (s : State) : Prop :=
  s.urgent.Perm (List.range 49) ∧ s.normal.Perm (List.range 49)

/-- The safe states. -/
structure State.Safe (s : State) : Prop where
  floor : s.floor.within
  yard : s.yard.within
  floorBusy : s.floor.busyWhenQueued
  yardBusy : s.yard.busyWhenQueued
  repeats : s.repeats.length ≤ Config.repeatCapacity
  bank0 : s.bank0.within
  bank1 : s.bank1.within
  clock : s.clock.within
  frames : s.frames.length ≤ Config.frameCapacity
  turn : s.turn = 0 ∨ s.turn < s.frames.length
  left : ∀ f ∈ s.frames, f.within
  pallets : palletsWithin s.pallets
  trunks : Table.keysIn s.trunks 1 128
  classes : Table.keysIn s.classes 0 7
  counter : 1 ≤ s.bookingCounter ∧ s.bookingCounter ≤ Config.lastSequence
  lastMove : s.lastMove ≤ Config.lastMoveNumber
  rotation : s.rotationWhole

/-- Doors and trunks that agree (R52): a door's claims are within its lane slots (R58, R84), it names as
active and next exactly the trunks placed so, and next pending tells whether it has a next trunk. -/
structure State.DoorsAgree (s : State) : Prop where
  claims : ∀ d, (s.door d).claims ≤ (s.door d).slots
  active : ∀ d t, (s.door d).active = some t ↔ (s.trunk? t).map Trunk.placement = some (.active d)
  next : ∀ d t, (s.door d).next = some t ↔ (s.trunk? t).map Trunk.placement = some (.next d)
  pending : ∀ d, (s.door d).nextPending = (s.door d).next.isSome

/-- No free mover stands beside a waiting move (R116). -/
def State.NothingToGrant (s : State) : Prop := s.freeList = [] ∨ ∀ q, q < 49 → s.queue q = []

/-! ## Terms of the statements -/

/-- A request is taken with room for a record of `n` bytes in its reply: no restart is pending (R173),
and the record fits (R168). -/
def State.takes (s : State) (c : Instr) (n : Nat) : Prop :=
  s.restart = none ∧ s.recordFits (s.isDue c) n = true

/-- What closes an event that may have changed claims, queues or the free list: the report of
LANE_PRESSURE (R90), the grant attempt (R116), the report of MOVERS_SHORT (R119). -/
def State.closeEvent (s : State) : State := (s.reportLanePressure.grantAttempt).reportMoversShort

/-- A grant pass at door `d` that hands on nothing but its report (R88): it releases no claim at another
door, and makes no pallet of the active trunk STAGED, or the attempt it would request, for trunk `served`,
follows anyway. -/
def State.passAlone (s : State) (d : Nat) (served : Option Nat) : Prop :=
  (s.grantPass d).doors = [] ∧
    ((s.grantPass d).staged = true → ((s.grantPass d).state.door d).active = served)

/-- The state after such a pass and its report of LANE_PRESSURE (R88, R90). -/
def State.afterPass (s : State) (d : Nat) : State := (s.grantPass d).state.reportLanePressure

/-- Passes at the doors of a list, one after the other, each of which hands on nothing but its report. -/
def State.passesAlone (s : State) (served : Option Nat) : List Nat → Prop
  | [] => True
  | d :: ds => s.passAlone d served ∧ (s.afterPass d).passesAlone served ds

/-- The state after them. -/
def State.afterPasses (s : State) (ds : List Nat) : State := ds.foldl State.afterPass s

/-- A release attempt for trunk `t` that releases nothing (R124, R125): the trunk is not ACTIVE, or it is
DUE, its in-flight count is at the depth, or none of its bookings is a candidate. A window holds at most
128 bookings (R43, R63). -/
def State.attemptEnds (s : State) (t : Nat) : Prop :=
  ∀ r d, s.trunk? t = some r → r.placement = .active d →
    r.phase = .due ∨ (s.door d).depth ≤ r.inFlight ∨
      (r.window.length ≤ 128 ∧ ∀ b ∈ r.window, s.isCandidate r d b = false)

/-- Booking `b` is the first candidate of a trunk's window at door `d` (R125): those before it are none,
and no two bookings share a sequence number (R61). -/
structure State.firstCandidate (s : State) (r : Trunk) (d : Nat) (pre : List Booking) (b : Booking)
    (rest : List Booking) : Prop where
  window : r.window = pre ++ b :: rest
  count : r.window.length ≤ 128
  seqs : (r.window.map Booking.seq).Nodup
  before : ∀ x ∈ pre, s.isCandidate r d x = false
  candidate : s.isCandidate r d b = true

/-- The tables and settings that only management requests, the clock and the resets write. -/
structure State.KeepsSettings (s t : State) : Prop where
  hub : t.hub = s.hub
  unit : t.unit = s.unit
  bank0 : t.bank0 = s.bank0
  bank1 : t.bank1 = s.bank1
  active : t.active = s.active
  clock : t.clock = s.clock
  classes : t.classes = s.classes
  keepAll : t.keepAll = s.keepAll
  channelA : t.channelA = s.channelA
  channelB : t.channelB = s.channelB
  limits : t.limits = s.limits
  verdictAddress : t.verdictAddress = s.verdictAddress
  restart : t.restart = s.restart
  doors : ∀ d, (t.door d).slots = (s.door d).slots ∧ (t.door d).reserve = (s.door d).reserve ∧
    (t.door d).depth = (s.door d).depth ∧ (t.door d).burst = (s.door d).burst
  conditions : ∀ c, (t.condition c).enableA = (s.condition c).enableA ∧
    (t.condition c).enableB = (s.condition c).enableB ∧
    (t.condition c).bothWays = (s.condition c).bothWays

/-- A scan that its place and its digits let through and that is no repeat (R1, R2, R4). -/
structure State.ScanPasses (s : State) (k : PlaceKind) (scan : ScanFields) : Prop where
  restart : s.restart = none
  place : placeInRange k scan.number.toNat = true
  digits : digitsPass scan = true
  fresh : s.isRepeat k scan.number.toNat scan.label = false

end Sys2Proof.Machine
end

