-- ==== Sys2Proof/Certificates/Slice0/Obligations.lean ====
section
/-! DEFINITION. The statements for the provers. Each is a proposition about the model; its docstring says what it states and on which part of the spec it rests. -/

open Sys2Proof Sys2Proof.Machine

/-- A step runs the command at the front of the queue with the queue's rest
(95_what_each_step_holds.md). -/
def Obligations.StepRunsTheFrontCommand : Prop :=
  ∀ (c : Instr) (s : State), step { s with pending := c :: s.pending } = exec c s

/-- Every well-formed request decodes from the element it is sent as (Chapter 11, section 11.4
(management request body), Chapter 10, section 10.3, log 21). The model's choice: a mode byte of
PLACE or kind byte of RESTART that is neither code is carried by PLACE_ACTIVE and RESTART_FULL (log
21, DESIGN CHOICE). -/
def Obligations.RequestsDecodeFromTheirEncoding : Prop :=
  ∀ i : Instr, i.wf = true → ∀ code params, encodeRequest i = some (code, params) →
    decodeRequest code params = i

/-- A management body gives back its tag, its stop flag and its counted elements, and nothing after
them (Chapter 11, section 11.4 (management request body)). -/
def Obligations.ManagementBodyIsReadBack : Prop :=
  ∀ (tag : BitVec 16) (flags : Byte) (es : List (Byte × List Byte)) (rest : List Byte),
    1 ≤ es.length → es.length ≤ 32 → (∀ e ∈ es, e.2.length < 256) →
    let body := bytesOf tag 2 ++ [flags, BitVec.ofNat 8 es.length] ++
      es.flatMap (fun e => [e.1, BitVec.ofNat 8 e.2.length] ++ e.2) ++ rest
    bodyTag body = some tag ∧ bodyElements body = some (flags.getLsbD 0, es)

/-- A received frame is forwarded, discarded or taken by its check sequence, straps, port and kind;
a discarded one has no effect (Chapter 10, section 10.1, Chapter 11, section 11.1, log 14, log 46).
That padding counts as body in the length tests is the model's choice (log 46, DESIGN CHOICE); the
function that gives the check sequence is log 14 (PRESUMED). -/
def Obligations.FramesAreTakenByPortAndKind : Prop :=
  (∀ (hub h u kind reserved : Byte) (unit : BitVec 4) (dest src : Address) (body : List Byte) (p : Port),
     let sent (data : List Byte) : RawFrame := { bytes := data ++ checkSequence data }
     let data := bytesOf dest 6 ++ bytesOf src 6 ++ [0xB5, 0xD2, h, u, kind, reserved] ++ body
     let frame := sent data
     (h ≠ hub ∨ u ≠ unit.zeroExtend 8 → classify hub unit p frame = .forward) ∧
     (h = hub → u = unit.zeroExtend 8 →
       (p = .floor → kind = 1 → 16 ≤ body.length →
         classify hub unit p frame = .take (scanCommand src body)) ∧
       (p = .floor → kind = 1 → body.length < 16 → classify hub unit p frame = .discard) ∧
       (p = .floor → kind = 2 → 4 ≤ body.length → ∀ c, terminalCommand src body = some c →
         classify hub unit p frame = .take c) ∧
       (p = .floor → kind = 2 → body.length < 4 ∨ terminalCommand src body = none →
         classify hub unit p frame = .discard) ∧
       (p = .yard → kind = 3 → classify hub unit p frame = .take (.mgmtFrame src body)) ∧
       (¬(p = .floor ∧ (kind = 1 ∨ kind = 2)) → ¬(p = .yard ∧ kind = 3) →
         classify hub unit p frame = .discard)) ∧
     ∀ any : List Byte,
       (∀ check : List Byte, check.length = 4 → check ≠ checkSequence any →
         classify hub unit p { bytes := any ++ check } = .discard) ∧
       (any[12]? ≠ some 0xB5 ∨ any[13]? ≠ some 0xD2 ∨ any.length < 18 →
         classify hub unit p (sent any) = .forward)) ∧
  (∀ (p : Port) (frame : RawFrame) (s : State), exec (.discardFrame p frame) s = .next s)

/-- A forwarded frame joins the pass-through queue of the other port unchanged, or is dropped when
it holds 64 (Chapter 10, section 10.2, log 11, log 14). That an idle port begins to transmit in the
same event is the reading of log 11 (DEDUCED); the function that gives the check sequence is log 14
(PRESUMED). -/
def Obligations.ForwardedFrameJoinsTheOtherPort : Prop :=
  ∀ (s : State) (frame : RawFrame) (a b : Port), (a = .floor ↔ b = .yard) →
    classify s.hub s.unit a frame = .forward →
    ((s.port b).pass.length < 64 → exec (.forwardFrame a frame) s = .next (s.setPort b
      ({ s.port b with pass := (s.port b).pass ++ [frame.bytes] }).begin)) ∧
    (64 ≤ (s.port b).pass.length → exec (.forwardFrame a frame) s = .next s) ∧
    ((s.port b).sending.isSome →
      ({ s.port b with pass := (s.port b).pass ++ [frame.bytes] }).begin =
        { s.port b with pass := (s.port b).pass ++ [frame.bytes] }) ∧
    (∀ d data : List Byte, frame.bytes = data ++ checkSequence data → d.length = 6 → 6 ≤ data.length →
      let other := d ++ data.drop 6
      classify s.hub s.unit a { bytes := other ++ checkSequence other } = .forward)

/-- Own frames wait in a bounded queue of their port, and a port transmits them before pass-through
frames (Chapter 10, section 10.2, Chapter 11, section 11.1, log 11, log 13, log 14). That an idle
port transmits a placed frame in the same event is the reading of log 11 (DEDUCED); the 60 bytes of
Ethernet's minimum are log 13, the function that gives the check sequence log 14 (both PRESUMED). -/
def Obligations.PortTransmitsOwnFramesFirst : Prop :=
  (∀ (s : State) (p : Port) (dest : Address) (body : OwnBody),
     let f : OwnFrame := { dest := dest, hub := s.hub, unit := s.unit, body := body }
     (256 ≤ (s.port p).own.length → s.placeOwn p dest body = s) ∧
     ((s.port p).own.length < 256 → (s.port p).sending.isSome →
       s.placeOwn p dest body = s.setPort p { s.port p with own := (s.port p).own ++ [f] }) ∧
     (s.port p = {} → s.placeOwn p dest body = s.setPort p { sending := some (.own f) })) ∧
  (∀ (s : State) (p : Port) (hub : Byte) (unit : BitVec 4), p = .floor ∨ s.restart = none →
     (∀ f fs, (s.port p).own = f :: fs → exec (.transmissionEnd p hub unit) s =
       .next (s.setPort p { s.port p with own := fs, sending := some (.own f) })) ∧
     (∀ b bs, (s.port p).own = [] → (s.port p).pass = b :: bs →
       exec (.transmissionEnd p hub unit) s =
         .next (s.setPort p { s.port p with pass := bs, sending := some (.pass b) })) ∧
     ((s.port p).own = [] → (s.port p).pass = [] → exec (.transmissionEnd p hub unit) s =
       .next (s.setPort p { s.port p with sending := none }))) ∧
  ((∀ f : OwnFrame, ∃ padding : List Byte,
     let content := bytesOf f.dest 6 ++ [0x02, 0x4E, 0x5A, 0x00, f.hub, f.unit.zeroExtend 8] ++
       [0xB5, 0xD2, f.hub, f.unit.zeroExtend 8, f.body.kind, 0] ++ f.body.bytes ++ padding
     (TxFrame.own f).bytes = content ++ checkSequence content ∧ (∀ b ∈ padding, b = 0) ∧
     (padding ≠ [] → content.length = 60) ∧ 60 ≤ content.length ∧
     RawFrame.checkOk { bytes := (TxFrame.own f).bytes } = true) ∧
   ∀ bs : List Byte, (TxFrame.pass bs).bytes = bs)

/-- A pin reset leaves the values of the reset table with the straps as sampled (Chapter 10, section
10.5, log 13, log 16). The model's choice: `pending` and `freeCount` are fields of the model's own
and are kept (log 16, DESIGN CHOICE). The bytes of the broadcast address, 0xFF, are log 13
(PRESUMED). -/
def Obligations.PinResetLeavesTheResetValues : Prop :=
  (∀ (s : State) (hub : Byte) (unit : BitVec 4), exec (.pinReset hub unit) s =
    .next { State.reset with
      hub := hub, unit := unit, pending := s.pending, freeCount := s.freeCount }) ∧
  State.reset.pallets = [] ∧ State.reset.repeats = [] ∧ State.reset.bank0 = {} ∧
  State.reset.bank1 = {} ∧ State.reset.active = .bank0 ∧ State.reset.classes = [] ∧
  State.reset.trunks = [] ∧ State.reset.bookingCounter = 1 ∧
  (∀ d, State.reset.door d =
    { slots := 0, reserve := 0, depth := 2, burst := 1
      active := none, next := none, nextPending := false, claims := 0, hold := false }) ∧
  (∀ q, State.reset.queue q = []) ∧
  (∀ m, State.reset.mover m = { address := none, state := .off, move := none }) ∧
  State.reset.freeList = [] ∧ State.reset.lastMove = 0 ∧ State.reset.urgent = List.range 49 ∧
  State.reset.normal = List.range 49 ∧ (∀ q, State.reset.burst q = 0) ∧
  State.reset.clock = { value := 0, running := false, periods := 0 } ∧
  (∀ c, State.reset.condition c =
    { raw := false, status := false, subject := none
      enableA := false, enableB := false, bothWays := false }) ∧
  State.reset.keepAll = false ∧ State.reset.channelA = none ∧ State.reset.channelB = none ∧
  State.reset.limits =
    { repeatWindow := 10, acceptTimeout := 20, doneTimeout := 600
      allowance := 45, threshold := 600, highWater := 3584 } ∧
  State.reset.verdictAddress = broadcast ∧ State.reset.floor = {} ∧ State.reset.yard = {} ∧
  State.reset.frames = [] ∧ State.reset.restart = none

/-- The end of the reply's transmission is the restart; FULL resets all, FLOOR keeps the settings
(Chapter 10, section 10.5, log 16, log 25, log 31). The model's reading, not the spec's words: in
both kinds `floor` keeps the frame in transmission (log 31, DEDUCED). The model's choice: a restart
that has no reply and has not begun one is taken at this end as if its reply had ended (log 25,
DESIGN CHOICE); `pending` and `freeCount` are the model's own fields and are kept (log 16, DESIGN
CHOICE). -/
def Obligations.RestartIsTakenWhenItsReplyHasEnded : Prop :=
  ∀ (s : State) (r : Restart) (hub : Byte) (unit : BitVec 4), s.restart = some r →
    (∀ x, r.reply = some x → exec (.transmissionEnd .yard hub unit) s = .next { s with
      yard := { s.yard with sending := some (.own x) }
      restart := some { r with reply := none, begun := true } }) ∧
    (r.reply = none → r.kind = .full → exec (.transmissionEnd .yard hub unit) s =
      .next { State.reset with
        hub := hub, unit := unit, floor := { sending := s.floor.sending }
        pending := s.pending, freeCount := s.freeCount }) ∧
    (r.reply = none → r.kind = .floor → exec (.transmissionEnd .yard hub unit) s =
      .next { State.reset with
        hub := s.hub, unit := s.unit, floor := { sending := s.floor.sending }
        bank0 := s.bank0, bank1 := s.bank1, active := s.active, classes := s.classes
        doors := s.doors.map fun x =>
          { slots := x.slots, reserve := x.reserve, depth := x.depth, burst := x.burst }
        conditions := s.conditions.map fun c =>
          { enableA := c.enableA, enableB := c.enableB, bothWays := c.bothWays }
        keepAll := s.keepAll, channelA := s.channelA, channelB := s.channelB
        limits := s.limits, verdictAddress := s.verdictAddress
        pending := s.pending, freeCount := s.freeCount })

/-- While a restart is pending, scans, terminal frames, management frames and requests have no
effect (Chapter 10, section 10.5). -/
def Obligations.PendingRestartDiscardsFramesAndRequests : Prop :=
  ∀ (s : State) (c : Instr), s.restart.isSome → c.goesOn = false → exec c s = .next s

/-- A management frame is refused whole with a reply, kept in progress, or discarded when 4 are in
progress (Chapter 10, section 10.3, log 16, log 17). The model's choice: where the body is shorter
than its tag the reply's tag is a free value, `Config.missingTag` at `freeCount` (log 17, DESIGN
CHOICE), and the count of draws, a field of the model's own, rises by one (log 16, DESIGN CHOICE).
-/
def Obligations.ManagementFrameIsTakenRefusedOrDiscarded : Prop :=
  ∀ (s : State) (src : Address) (body : List Byte), s.restart = none →
    (∀ tag, bodyTag body = some tag → bodyElements body = none →
      exec (.mgmtFrame src body) s = .next (s.placeOwn .yard src
        (.reply { tag := tag, status := .badRequest, results := [], records := [] }))) ∧
    (bodyTag body = none → exec (.mgmtFrame src body) s = .next
      ({ s with freeCount := s.freeCount + 1 }.placeOwn .yard src (.reply
        { tag := Config.missingTag s.freeCount, status := .badRequest
          results := [], records := [] }))) ∧
    (∀ tag stop es, bodyTag body = some tag → bodyElements body = some (stop, es) →
      s.frames.length < 4 → exec (.mgmtFrame src body) s = .next { s with frames := s.frames ++
        [{ source := src, tag := tag, stop := stop, left := es, results := [], records := [] }] }) ∧
    (∀ stop es, bodyElements body = some (stop, es) → 4 ≤ s.frames.length →
      exec (.mgmtFrame src body) s = .next s)

/-- A request's result and record join its frame, the turn passes on, and the last result places the
reply (Chapter 10, section 10.3, log 1, log 16, log 18). The model's choice: `answer` is a field of
the model's own (log 16, DESIGN CHOICE), and the first clause, that a result no frame carries shows
there and changes nothing else, is log 1 (DESIGN CHOICE). The model's reading: the new `turn`, in
every clause, is fixed as the request completes (log 18, DEDUCED). -/
def Obligations.ResultIsAccountedToTheDueFrame : Prop :=
  ∀ (s : State) (r : Result) (record : Option Record),
    s.giveResult false r record = { s with answer := some { result := r, record := record } } ∧
    ∀ f, s.dueFrame = some f →
      let s' : State := { s with answer := some { result := r, record := record } }
      let results := f.results ++ [r]
      let records := f.records ++ (record.map fun x => (f.results.length + 1, x)).toList
      let left := f.left.drop 1
      let gone : State := { s' with
        frames := s.frames.eraseIdx s.turn
        turn := if s.turn + 1 < s.frames.length then s.turn else 0 }
      let reply (rs : List Result) : OwnBody :=
        .reply { tag := f.tag, status := .done, results := rs, records := records }
      (r ≠ .done → f.stop = true → s.giveResult true r record =
        gone.placeOwn .yard f.source (reply (results ++ List.replicate left.length .notRun))) ∧
      (r = .done ∨ f.stop = false → left = [] →
        s.giveResult true r record = gone.placeOwn .yard f.source (reply results)) ∧
      (r = .done ∨ f.stop = false → left ≠ [] → s.giveResult true r record =
        { s' with
          frames := s.frames.set s.turn { f with results := results, records := records, left := left }
          turn := if s.turn + 1 < s.frames.length then s.turn + 1 else 0 })

/-- An element that is no request, or a record too large for the reply, is BAD_REQUEST with no other
effect (Chapter 10, section 10.3, Chapter 11, section 11.4, log 26). That FORCE_RELEASE is tested
for room before its walk is log 26 (DEDUCED). -/
def Obligations.BadRequestHasNoOtherEffect : Prop :=
  (∀ (code : Byte) (params : List Byte),
     let catalogue : Option Nat := match code.toNat with
       | 0x01 => some 6
       | 0x02 => some 16
       | 0x03 => some 8
       | 0x04 => some 3
       | 0x05 => some 7
       | 0x06 => some 2
       | 0x07 => some 0
       | 0x08 => some 0
       | 0x09 => some 0
       | 0x0A => some 4
       | 0x0B => some 3
       | 0x10 => some 4
       | 0x11 => some 0
       | 0x12 => some 0
       | 0x13 => some 18
       | 0x14 => some 1
       | 0x15 => some 10
       | 0x16 => some 7
       | 0x17 => some 1
       | 0x18 => some 3
       | 0x19 => some 1
       | 0x1A => some 5
       | 0x1B => some 2
       | 0x1C => some 1
       | 0x20 => some 1
       | 0x21 => some 1
       | 0x22 => some 6
       | 0x30 => some 2
       | 0x31 => some 2
       | 0x32 => some 6
       | 0x33 => some 8
       | 0x34 => some 0
       | 0x40 => some 10
       | 0x41 => some 6
       | 0x42 => some 0
       | 0x4F => some 1
       | _ => none
     (∀ s : State, s.restart = none → exec (.badRequestCode code params) s = .next
       (s.giveResult (s.isDue (.badRequestCode code params)) .badRequest none)) ∧
     (decodeRequest code params = .badRequestCode code params ↔ catalogue ≠ some params.length)) ∧
  (∀ (s : State) (f : MgmtFrame), s.restart = none → s.dueFrame = some f →
     (s.isDue .readNotices = true →
       (1400 < (f.records.map fun x => x.2.size + 3).sum + 207 + 3 →
         exec .readNotices s = .next (s.giveResult true .badRequest none)) ∧
       ((f.records.map fun x => x.2.size + 3).sum + 207 + 3 ≤ 1400 →
         exec .readNotices s = .next (s.giveResult true .done (some (.notices
           { conditions := s.conditions.toList, keepAll := s.keepAll
             channelA := s.channelA, channelB := s.channelB }))))) ∧
     (∀ (door : Byte) (t : Nat) (r : Trunk), s.isDue (.forceRelease door) = true →
       isDoorNumber door.toNat = true → (s.door door.toNat).active = some t →
       s.trunk? t = some r → r.phase ≠ .due → r.inFlight < (s.door door.toNat).depth →
       1400 < (f.records.map fun x => x.2.size + 3).sum + 16 + 3 →
         exec (.forceRelease door) s = .next (s.giveResult true .badRequest none)))

/-- Every step from a safe state that answers a next state leaves it safe (Chapter 1, sections 1.2
and 1.4, Chapter 2, section 2.1, Chapter 3, section 3.1, Chapter 4, section 4.1, Chapter 6, sections
6.2 and 6.6, Chapter 10, sections 10.1 and 10.3). -/
def Obligations.EveryStepKeepsTheStateSafe : Prop :=
  ∀ s t : State, s.Safe → step s = .next t → t.Safe

/-- The state after a pin reset is safe (Chapter 10, section 10.5). -/
def Obligations.ResetIsSafe : Prop :=
  State.reset.Safe

/-- No scan, terminal frame or deadline changes the straps, banks, clock, classes, door or notice
settings, or a restart (Chapter 10, section 10.1). -/
def Obligations.FloorAndDeadlinesChangeNoSettings : Prop :=
  ∀ (c : Instr) (s t : State),
    (c.fromFloor = true ∨ (∃ m, c = .acceptTimeout m) ∨ (∃ m, c = .doneTimeout m) ∨
      (∃ k, c = .closeTimeReached k) ∨ ∃ k, c = .cutoffReached k) →
    exec c s = .next t → State.KeepsSettings s t

/-- A scan whose place is out of range is answered BAD_PLACE by two verdicts, and nothing else
changes (R1). -/
def Obligations.ScanOutOfPlaceIsBadPlace : Prop :=
  ∀ (s : State) (src : Address) (scan : ScanFields), s.restart = none →
    let answer (kind : Byte) : State :=
      let v : OwnBody := .verdict
        { echoKind := kind, echo := scan, result := .badPlace, state := none, trunk := none
          drop := none, door := none, candidate := 0, flags := {}, position := none
          kingpin := 0, axle := 0 }
      (s.placeOwn .floor src v).placeOwn .yard s.verdictAddress v
    (32 < scan.number.toNat → exec (.intakeScan src scan) s = .next (answer 0)) ∧
    (scan.number = 0 ∨ 48 < scan.number.toNat →
      exec (.laneScan src scan) s = .next (answer 1) ∧
      exec (.loadScan src scan) s = .next (answer 2)) ∧
    (scan.number ≠ 0 → exec (.reworkScan src scan) s = .next (answer 3)) ∧
    (∀ kind : Byte, 4 ≤ kind.toNat →
      exec (.badPlaceKindScan src kind scan) s = .next (answer kind))

/-- A scan in place whose label or zone is not decimal, or whose check digit is wrong, is answered
BAD_LABEL (R2). -/
def Obligations.ScanWithWrongDigitsIsBadLabel : Prop :=
  ∀ (s : State) (src : Address) (k : PlaceKind) (scan : ScanFields), s.restart = none →
    placeInRange k scan.number.toNat = true →
    let d (i : Nat) : Nat := scan.label.toNat / 16 ^ (11 - i) % 16
    let sum := d 0 + 3 * d 1 + 7 * d 2 + d 3 + 3 * d 4 + 7 * d 5 + d 6 + 3 * d 7 + 7 * d 8 + d 9 +
      3 * d 10
    ((∃ i, i < 12 ∧ 9 < d i) ∨ (∃ i, i < 6 ∧ 9 < scan.zone.toNat / 16 ^ (5 - i) % 16) ∨
      d 11 ≠ (10 - sum % 10) % 10) →
    let code : Byte := match k with
      | .intake => 0
      | .lane => 1
      | .load => 2
      | .rework => 3
    let v : OwnBody := .verdict { echoKind := code, echo := scan, result := .badLabel }
    let c : Instr := match k with
      | .intake => .intakeScan src scan
      | .lane => .laneScan src scan
      | .load => .loadScan src scan
      | .rework => .reworkScan src scan
    exec c s = .next ((s.placeOwn .floor src v).placeOwn .yard s.verdictAddress v)

/-- A live repeat is answered REPEAT and changes nothing; the repeat list holds 64 entries, one a
place and label (Chapter 1, section 1.2, log 39). The model's reading: an entry that had expired and
stands within the window again after START_SHIFT set the clock back is live again, so the REPEAT
clause covers it (log 39, DEDUCED). -/
def Obligations.RepeatScansOnlyAnswerAndTheListStaysBounded : Prop :=
  (∀ (s : State) (src : Address) (k : PlaceKind) (scan : ScanFields) (e : RepeatEntry),
     s.restart = none → placeInRange k scan.number.toNat = true → digitsPass scan = true →
     e ∈ s.repeats → e.kind = k → e.number = scan.number.toNat → e.label = scan.label →
     e.time ≤ s.clock.value → s.clock.value - e.time < s.limits.repeatWindow →
     let code : Byte := match k with
       | .intake => 0
       | .lane => 1
       | .load => 2
       | .rework => 3
     let c : Instr := match k with
       | .intake => .intakeScan src scan
       | .lane => .laneScan src scan
       | .load => .loadScan src scan
       | .rework => .reworkScan src scan
     let echo : ScanFields := { scan with
       type := if scan.type.toNat ≤ 4 then scan.type else 0
       cls := if scan.cls.toNat ≤ 3 then scan.cls else 0
       kg := if scan.kg.toNat ≤ 2000 then scan.kg else 2000 }
     let v : Verdict := match s.pallet? scan.label with
       | none => { echoKind := code, echo := echo, result := .repeated }
       | some p =>
           { echoKind := code, echo := echo, result := .repeated, state := some p.state
             trunk := p.trunk, drop := p.drop
             door := p.claimDoor.or (p.trunk.bind s.doorOfTrunk), flags := p.flags }
     exec c s = .next ((s.placeOwn .floor src (.verdict v)).placeOwn .yard s.verdictAddress
       (.verdict v))) ∧
  (∀ (s : State) (k : PlaceKind) (n : Nat) (l : Label),
     let same (e x : RepeatEntry) : Prop := e.kind = x.kind ∧ e.number = x.number ∧ e.label = x.label
     let t := s.enterRepeat k n l
     let new : RepeatEntry := { kind := k, number := n, label := l, time := s.clock.value }
     s.repeats.length ≤ 64 → s.repeats.Pairwise (fun e x => ¬same e x) →
     t = { s with repeats := t.repeats } ∧ t.repeats.getLast? = some new ∧ t.repeats.length ≤ 64 ∧
     t.repeats.Pairwise (fun e x => ¬same e x) ∧
     t.repeats.dropLast =
       (let kept := s.repeats.filter fun e => !e.names k n l
        if 64 ≤ kept.length then kept.drop 1 else kept))

/-- A LANE, LOAD or REWORK scan of a label with no record is answered UNKNOWN_PALLET and leaves a
repeat entry (Chapter 1, sections 1.3 and 1.5, log 45). That the verdict follows the reports that
close the event is the model's choice (log 45, DESIGN CHOICE). -/
def Obligations.ScanOfUnknownLabelIsAnsweredUnknown : Prop :=
  ∀ (s : State) (src : Address) (scan : ScanFields), s.pallet? scan.label = none →
    let answer (k : PlaceKind) (code : Byte) (r : VerdictResult) : State :=
      (s.enterRepeat k scan.number.toNat scan.label).closeEvent.sendVerdict src
        { echoKind := code, echo := clampScan scan, result := r }
    (s.ScanPasses .lane scan →
      exec (.laneScan src scan) s = .next (answer .lane 1 .unknownPallet)) ∧
    (s.ScanPasses .load scan →
      exec (.loadScan src scan) s = .next (answer .load 2 .unknownPallet)) ∧
    (s.ScanPasses .rework scan →
      exec (.reworkScan src scan) s = .next (answer .rework 3 .unknownPallet)) ∧
    (s.ScanPasses .intake scan → 4096 ≤ s.pallets.length →
      exec (.intakeScan src scan) s = .next (answer .intake 0 .tableFull))

/-- An INTAKE of a new label is looked up in the active bank; one that a trunk without a door takes
makes the record, books it and answers BOOKED (Chapter 1, section 1.5, Chapter 2, section 2.2,
Chapter 4, sections 4.1 to 4.3, log 45). That the verdict follows the reports that close the event
is the model's choice (log 45, DESIGN CHOICE). -/
def Obligations.IntakeBooksToAnUnplacedTrunk : Prop :=
  (∀ (s : State) (src : Address) (scan : ScanFields) (depot : Nat) (fallback : Bool) (c : Choice)
       (r : Trunk),
     let echo := clampScan scan
     let type := typeOf echo.type
     let made : Pallet :=
       { label := scan.label, zone := scan.zone, cls := Machine.classOf echo.cls, type := type
         quarters := type.quarters, typeLimit := type.limit, measured := echo.kg.toNat
         bookingKg := if echo.kg = 0 then type.limit else echo.kg.toNat
         intakeDoor := scan.number.toNat, intakeTime := s.clock.value
         location := .apron scan.number.toNat }
     s.ScanPasses .intake scan → s.pallet? scan.label = none → s.pallets.length < 4096 →
     made.measured ≤ made.typeLimit → s.admission made = .books depot fallback c →
     s.trunk? c.trunk = some r → r.placement = .unplaced →
     let counted := (s.enterRepeat .intake scan.number.toNat scan.label |>.addPallet made).reportCount
     let booking : Booking :=
       { label := scan.label, drop := c.drop, quarters := made.quarters, kg := made.bookingKg
         seq := s.bookingCounter, standing := .unreleased }
     let booked : State := { counted with
       bookingCounter := if s.bookingCounter < 4294967295 then s.bookingCounter + 1 else 1
       trunks := counted.trunks.adjust c.trunk fun r => { r with
         window := joinWindow r.window booking
         bookedQuarters := r.bookedQuarters + made.quarters
         bookedKg := r.bookedKg + made.bookingKg
         held := r.held.filter (· ≠ scan.label) ++ [scan.label] }
       pallets := counted.pallets.adjust scan.label.toNat fun _ => { made with
         depot := some depot, state := .held, trunk := some c.trunk, drop := some c.drop
         flags := { fallback := fallback, spill := c.spill } } }
     let t := booked.closeEvent
     exec (.intakeScan src scan) s = .next (t.sendVerdict src
       { t.verdictOf 0 echo .booked with candidate := c.index })) ∧
  (∀ (s : State) (p : Pallet),
     let b := s.bank s.active
     let found (x : RouteOutcome) (a : Admission) : Prop :=
       b.lookup p.zone p.cls = x ∧ s.admission p = a
     let code : Nat := match p.cls with
       | .standard => 0
       | .priority => 1
       | .am => 2
       | .timed => 3
     ((∀ z e, zoneValue p.zone = some z → e ∈ b.zones → ¬(e.first ≤ z ∧ z ≤ e.last)) →
       found .noRoute (.fails none false .noRoute)) ∧
     ∀ z e, b.within → zoneValue p.zone = some z → e ∈ b.zones → e.first ≤ z → z ≤ e.last →
       let own := b.rows.get? (code * 256 + e.depot)
       let base := b.rows.get? e.depot
       let follows (row : List Nat) (fallback : Bool) : Prop :=
         (s.choose { p with depot := some e.depot } row = none →
           found (.found e.depot fallback row) (.fails (some e.depot) fallback .noTrunk)) ∧
         ∀ c, s.choose { p with depot := some e.depot } row = some c →
           found (.found e.depot fallback row) (.books e.depot fallback c)
       (e.hold = true → found .zoneHeld (.fails none false .zoneHeld)) ∧
       (e.hold = false →
         (own = none → code = 0 ∨ base = none →
           found (.noTrunk e.depot) (.fails (some e.depot) false .noTrunk)) ∧
         (∀ row, own = some row → follows row false) ∧
         (∀ row, own = none → code ≠ 0 → base = some row → follows row true)))

/-- An INTAKE is checked, routed and booked, again for a pallet off its path; above 1500 kg it is an
exception, of a booked pallet a duplicate (Chapter 1, section 1.5, Chapter 4, sections 4.1 to 4.3,
Chapter 8, section 8.1, log 45). That the verdict follows the reports that close the event is the
model's choice (log 45, DESIGN CHOICE). -/
def Obligations.IntakeOfUnsafeOrBookedPallets : Prop :=
  (∀ (s : State) (src : Address) (scan : ScanFields),
     let echo := clampScan scan
     s.ScanPasses .intake scan → s.pallet? scan.label = none → s.pallets.length < 4096 →
     1500 < scan.kg.toNat →
     let entered := s.enterRepeat .intake scan.number.toNat scan.label
     let counted := (entered.addPallet (entered.intakeRecord echo)).reportCount
     let failed := (counted.modPallet scan.label fun p =>
       { p with state := .exception, reason := some .unsafeWeight }).raise .weight (.label scan.label)
     let t := (failed.makeMove scan.label .rework (.apron scan.number.toNat) .rework 0).closeEvent
     exec (.intakeScan src scan) s = .next (t.sendVerdict src (t.verdictOf 0 echo .unsafeWeight)) ∧
     (counted.pallet? scan.label).any fun p =>
       p.depot = none ∧ p.measured = min scan.kg.toNat 2000 ∧ p.move = none) ∧
  (∀ (s : State) (src : Address) (scan : ScanFields) (p : Pallet),
     s.ScanPasses .intake scan → s.pallet? scan.label = some p → p.label = scan.label →
     (p.state = .held ∨ p.state = .laneBound ∨ p.state = .staged ∨ p.state = .loadBound ∨
       p.state = .loaded) →
     let t := ((s.enterRepeat .intake scan.number.toNat scan.label).raise .duplicate
       (.label scan.label)).closeEvent
     exec (.intakeScan src scan) s =
       .next (t.sendVerdict src (t.verdictOf 0 (clampScan scan) .duplicateLabel)) ∧
     (s.NothingToGrant → t.pallets = s.pallets)) ∧
  (∀ (s : State) (src : Address) (scan : ScanFields) (p : Pallet),
     let echo := clampScan scan
     let l := scan.label
     let type := typeOf echo.type
     let made : Pallet :=
       { label := l, zone := scan.zone, cls := Machine.classOf echo.cls, type := type
         quarters := type.quarters, typeLimit := type.limit, measured := echo.kg.toNat
         bookingKg := if echo.kg = 0 then type.limit else echo.kg.toNat
         intakeDoor := scan.number.toNat, intakeTime := s.clock.value
         location := .apron scan.number.toNat }
     let entered := s.enterRepeat .intake scan.number.toNat l
     let again : Prop := s.pallet? l = some p ∧ p.label = l ∧ p.claimDoor = none ∧
       (p.state = .exception ∨ p.state = .atRework ∨ p.state = .misloaded)
     let rewritten := (entered.withdrawMove l).modPallet l fun q => { made with state := q.state }
     let answer (t : State) (r : VerdictResult) (index : Nat) : Host.Outcome State Fault Refusal :=
       .next (t.closeEvent.sendVerdict src { t.closeEvent.verdictOf 0 echo r with candidate := index })
     s.ScanPasses .intake scan →
     (again → 1500 < scan.kg.toNat → exec (.intakeScan src scan) s =
       answer (((rewritten.modPallet l fun q =>
         { q with state := .exception, reason := some .unsafeWeight }).raise .weight
           (.label l)).makeMove l .rework (.apron scan.number.toNat) .rework 0) .unsafeWeight 0) ∧
     ∀ written : State,
       (s.pallet? l = none ∧ s.pallets.length < 4096 ∧
         written = (entered.addPallet made).reportCount) ∨ (again ∧ written = rewritten) →
       made.measured ≤ 1500 →
       let heavy := decide (made.typeLimit < made.measured)
       let checked := if heavy then (written.modPallet l fun q =>
           { q with flags := { q.flags with overweight := true } }).raise .weight (.label l)
         else written
       (∀ depot fallback reason, s.admission made = .fails depot fallback reason →
         exec (.intakeScan src scan) s = answer (((checked.modPallet l fun q => { q with
           depot := depot, flags := { q.flags with fallback := fallback }
           state := .exception, reason := some reason }).raise .unrouted (.label l)).makeMove l
             .rework (.apron scan.number.toNat) .rework 0) reason.verdict 0) ∧
       ∀ depot fallback c r, s.admission made = .books depot fallback c → s.trunk? c.trunk = some r →
         let booking : Booking :=
           { label := l, drop := c.drop, quarters := made.quarters, kg := made.bookingKg
             seq := s.bookingCounter, standing := .unreleased }
         let joined : Trunk := { r with
           window := joinWindow r.window booking
           bookedQuarters := r.bookedQuarters + made.quarters
           bookedKg := r.bookedKg + made.bookingKg, held := r.held.filter (· ≠ l) ++ [l] }
         let booked : State := { checked with
           bookingCounter := if s.bookingCounter < 4294967295 then s.bookingCounter + 1 else 1
           trunks := checked.trunks.adjust c.trunk fun _ => joined
           pallets := checked.pallets.adjust l.toNat fun _ => { made with
             depot := some depot, state := .held, trunk := some c.trunk, drop := some c.drop
             flags := { overweight := heavy, fallback := fallback, spill := c.spill } } }
         (r.placement = .unplaced → exec (.intakeScan src scan) s = answer booked .booked c.index) ∧
         (∀ d, r.door? = some d → (∃ e, r.placement = .next e) ∨ joined.loadingDrop = r.loadingDrop →
           booked.passAlone d none →
           exec (.intakeScan src scan) s = answer (booked.afterPass d) .booked c.index) ∧
         (∀ d, r.placement = .active d → joined.loadingDrop ≠ r.loadingDrop →
           booked.passAlone d (some c.trunk) → (booked.afterPass d).attemptEnds c.trunk →
           exec (.intakeScan src scan) s = answer (booked.afterPass d) .booked c.index))

/-- PROBE gives the verdict result that an INTAKE scan of the same record would give, and changes
nothing (Chapter 1, section 1.6). -/
def Obligations.ProbeGivesTheResultOfTheIntake : Prop :=
  ∀ (s : State) (scan : ScanFields),
    (s.takes (.probe 0 scan) 34 → exec (.probe 0 scan) s = .next
      (s.giveResult (s.isDue (.probe 0 scan)) .done (some (.verdict (s.probe 0 scan))))) ∧
    (placeInRange .intake scan.number.toNat = true → digitsPass scan = true →
      (∀ p, s.pallet? scan.label = some p → p.label = scan.label) →
      let entered := s.enterRepeat .intake scan.number.toNat scan.label
      let x := scanEvent entered .intake (clampScan scan)
      (s.probe 0 scan).result = x.2 ∧
      ((s.probe 0 scan).result = .booked →
        (s.probe 0 scan).candidate = x.1.candidate ∧
        ∃ p, x.1.s.pallet? scan.label = some p ∧ (s.probe 0 scan).trunk = p.trunk ∧
          (s.probe 0 scan).drop = p.drop ∧ (s.probe 0 scan).flags = p.flags))

/-- A LANE scan stages the pallet, holds it in the lane, confirms or brings back its release, or
raises MISLANE, by its state and claim (Chapter 5, section 5.4, Chapter 7, sections 7.1 and 7.2, log
20, log 45). That the verdict shows a release's position only for the scanned pallet is log 20
(DEDUCED). That the verdict follows the reports that close the event is the model's choice (log 45,
DESIGN CHOICE). -/
def Obligations.LaneScansStageOrRaiseMislane : Prop :=
  (∀ (s : State) (src : Address) (scan : ScanFields) (p : Pallet),
     s.ScanPasses .lane scan → s.pallet? scan.label = some p → p.label = scan.label →
     p.state = .laneBound → p.claimDoor = some scan.number.toNat →
     p.trunk ≠ (s.door scan.number.toNat).active →
     let entered := s.enterRepeat .lane scan.number.toNat scan.label
     let t := ((entered.endMove scan.label).modPallet scan.label fun q =>
       { q with
         location := .lane scan.number.toNat, state := .staged
         flags := { q.flags with mislaned := false } }).closeEvent
     exec (.laneScan src scan) s =
       .next (t.sendVerdict src (t.verdictOf 1 (clampScan scan) .staged))) ∧
  (∀ (s : State) (src : Address) (scan : ScanFields) (p : Pallet),
     s.ScanPasses .lane scan → s.pallet? scan.label = some p → p.label = scan.label →
     (p.state = .exception ∨ p.state = .misloaded ∨ p.state = .atRework) →
     let lane : Location := .lane scan.number.toNat
     let entered := s.enterRepeat .lane scan.number.toNat scan.label
     let found := entered.modPallet scan.label fun p =>
       { p with
         state := .exception, reason := p.reason.or (some .stray), location := lane
         move := p.move.map fun mv => { mv with source := lane } }
     let queued := if p.move.isSome then found
       else found.makeMove scan.label .rework lane .rework 0
     let t := (queued.raise .mislane (.label scan.label)).closeEvent
     exec (.laneScan src scan) s =
       .next (t.sendVerdict src (t.verdictOf 1 (clampScan scan) .noBooking))) ∧
  (∀ (s : State) (src : Address) (scan : ScanFields) (p : Pallet) (t : Nat) (r : Trunk),
     let d := scan.number.toNat
     let staged := ((s.enterRepeat .lane d scan.label).endMove scan.label).modPallet scan.label fun q =>
       { q with location := .lane d, state := .staged, flags := { q.flags with mislaned := false } }
     s.ScanPasses .lane scan → s.pallet? scan.label = some p → p.label = scan.label →
     p.state = .laneBound → p.claimDoor = some d → p.trunk = some t → (s.door d).active = some t →
     s.trunk? t = some r → r.placement = .active d →
     (staged.attemptEnds t →
       let v := staged.closeEvent
       exec (.laneScan src scan) s =
         .next (v.sendVerdict src (v.verdictOf 1 (clampScan scan) .staged))) ∧
     ∀ pre b rest pos, staged.firstCandidate r d pre b rest → r.phase ≠ .due →
       (s.door d).hold = false → (r.fit (s.classOf r).rows b.quarters b.kg).target? = some pos →
       let x := r.project (s.classOf r) b.kg pos
       (x.passes (s.classOf r) = true → r.inFlight + 1 = (s.door d).depth →
         (r.setStanding b.label .released).loadingDrop = r.loadingDrop →
         let v := (staged.releaseBooking t d b
           (r.fit (s.classOf r).rows b.quarters b.kg) pos x).closeEvent
         exec (.laneScan src scan) s = .next (v.sendVerdict src (if b.label = scan.label then
           { v.verdictOf 1 (clampScan scan) .staged with
             position := some pos, kingpin := x.kingpin, axle := x.axle }
         else v.verdictOf 1 (clampScan scan) .staged))) ∧
       (x.passes (s.classOf r) = false → r.inFlight = 0 → 0 < (s.door d).depth →
         (∀ y ∈ rest, staged.isCandidate r d y = false) →
         let v := ((staged.modDoor d fun y => { y with hold := true }).reportBalanceHold).closeEvent
         exec (.laneScan src scan) s =
           .next (v.sendVerdict src (v.verdictOf 1 (clampScan scan) .staged)))) ∧
  (∀ (s : State) (src : Address) (scan : ScanFields) (p : Pallet) (t : Nat) (r : Trunk),
     let d := scan.number.toNat
     let l := scan.label
     let entered := s.enterRepeat .lane d l
     let ended := entered.endMove l
     let answer (v : State) (x : VerdictResult) : Prop := exec (.laneScan src scan) s =
       .next (v.closeEvent.sendVerdict src (v.closeEvent.verdictOf 1 (clampScan scan) x))
     let elsewhere := p.claimDoor.filter fun c => c ≠ d
     let freed (v : State) : State := if elsewhere.isSome then v.releaseClaim l else v
     let passed (v : State) : State := v.afterPasses elsewhere.toList
     -- the single test of R93: the loading drop's slots, or the slots above the reserve
     let room (v : State) : Bool :=
       if (v.door d).active = some t ∧ p.drop = some r.loadingDrop then
         (v.door d).claims < (v.door d).slots
       else (v.door d).reserve < (v.door d).slots - (v.door d).claims
     s.ScanPasses .lane scan → s.pallet? l = some p → p.label = l →
     (∀ c, p.state = .laneBound ∨ p.state = .staged → p.claimDoor = some c → c ≠ d →
       answer (((ended.modPallet l fun q => { q with
         location := .lane d, state := .laneBound, flags := { q.flags with mislaned := true }
           }).makeMove l .shift (.lane d) (.lane c) c).raise .mislane (.label l)) .mislane) ∧
     (p.state = .loaded → answer (entered.raise .mislane (.label l)) .mislane) ∧
     (p.trunk = some t → s.trunk? t = some r →
       (p.state = .held → r.door? = some d →
         let left := freed (entered.modTrunk t fun r => { r with held := r.held.filter (· ≠ l) })
         let claims := p.claimDoor ≠ some d ∧ room left = true
         let staged := (if claims then left.takeClaim l d else left).modPallet l fun q =>
           { q with location := .lane d, state := .staged, flags := { q.flags with unplanned := true } }
         staged.passesAlone none elsewhere.toList → (passed staged).attemptEnds t →
         answer (passed staged) .staged) ∧
       (p.state = .held → r.door? ≠ some d →
         let moved := (freed entered).modPallet l fun q => { q with location := .lane d, state := .held }
         moved.passesAlone none elsewhere.toList → answer (passed moved) .held) ∧
       (p.state = .staged → p.claimDoor = none → r.door? ≠ some d →
         let moved := (entered.modPallet l fun q => { q with
           location := .lane d, state := .held }).modTrunk t fun r =>
             { r with held := r.held.filter (· ≠ l) ++ [l] }
         moved.passesAlone none r.door?.toList → answer (moved.afterPasses r.door?.toList) .held) ∧
       (p.state = .staged → p.claimDoor = some d → answer entered .staged) ∧
       (p.state = .staged → p.claimDoor = none → r.door? = some d →
         let v := if room entered then entered.takeClaim l d else entered
         v.attemptEnds t → answer v .staged) ∧
       (∀ home, p.state = .loadBound → p.claimDoor = some home →
         let renewed (m : Bool) : State := (ended.modPallet l fun q => { q with
           location := .lane d, flags := { q.flags with mislaned := m } }).makeMove l .load (.lane d)
             (.trailer t) home
         (d = home → p.flags.mislaned = false → answer entered .staged) ∧
         (d = home → p.flags.mislaned = true → answer (renewed false) .staged) ∧
         (d ≠ home → answer ((renewed true).raise .mislane (.label l)) .mislane))))

/-- A LOAD scan loads a pallet of the active trunk, planned or not, and misloads any other; without
an active trunk it is LATE_LOAD (Chapter 7, section 7.4, Chapter 4, section 4.5, log 43, log 45).
That MISLOAD is raised before the passes and attempts of its flush is log 43 (DEDUCED). That the
verdict follows the reports that close the event is the model's choice (log 45, DESIGN CHOICE). -/
def Obligations.LoadScansLoadOrRaiseMisload : Prop :=
  (∀ (s : State) (src : Address) (scan : ScanFields) (p : Pallet) (t : Nat) (r : Trunk) (b : Booking),
     let d := scan.number.toNat
     s.ScanPasses .load scan → s.pallet? scan.label = some p → p.label = scan.label →
     p.state = .loadBound → p.trunk = some t → p.claimDoor = some d →
     (s.door d).active = some t → (s.door d).next = none → s.trunk? t = some r →
     r.phase = .due → r.held = [] → r.booking? scan.label = some b →
     let ended := (s.enterRepeat .load d scan.label).endMove scan.label
     let counted := ended.modTrunk t fun r => { r with
       window := r.window.map fun x => if x.label = scan.label then { x with standing := .loaded } else x
       loadedQuarters := r.loadedQuarters + b.quarters, loadedKg := r.loadedKg + b.kg
       inFlight := r.inFlight - 1 }
     let loaded := (counted.modPallet scan.label fun p =>
       { p with state := .loaded, location := .trailer t }).releaseClaim scan.label
     let u := loaded.closeEvent
     exec (.loadScan src scan) s = .next (u.sendVerdict src
       { u.verdictOf 2 (clampScan scan) .loaded with position := p.position })) ∧
  (∀ (s : State) (src : Address) (scan : ScanFields) (p : Pallet),
     s.ScanPasses .load scan → s.pallet? scan.label = some p → p.label = scan.label →
     (s.door scan.number.toNat).active = none →
     let t := ((s.enterRepeat .load scan.number.toNat scan.label).raise .misload
       (.label scan.label)).closeEvent
     exec (.loadScan src scan) s =
       .next (t.sendVerdict src (t.verdictOf 2 (clampScan scan) .lateLoad)) ∧
     (s.NothingToGrant → t.pallets = s.pallets)) ∧
  (∀ (s : State) (src : Address) (scan : ScanFields) (p : Pallet) (t : Nat) (r : Trunk),
     let d := scan.number.toNat
     let l := scan.label
     let entered := s.enterRepeat .load d l
     let ended := entered.endMove l
     let answer (v : State) (x : VerdictResult) (pos : Option Nat) (kingpin : Int) (axle : Nat) : Prop :=
       exec (.loadScan src scan) s = .next (v.closeEvent.sendVerdict src
         { v.closeEvent.verdictOf 2 (clampScan scan) x with
           position := pos, kingpin := kingpin, axle := axle })
     let misloaded (v : State) : State := (v.modPallet l fun q =>
       { q with state := .misloaded, location := .trailer t }).raise .misload (.label l)
     s.ScanPasses .load scan → s.pallet? l = some p → p.label = l → (s.door d).active = some t →
     s.trunk? t = some r → r.placement = .active d →
     (p.state = .loaded → p.trunk = some t → answer entered .loaded p.position 0 0) ∧
     (p.state = .loaded → p.trunk ≠ some t →
       answer (entered.raise .misload (.label l)) .misload p.position 0 0) ∧
     (p.state ≠ .loaded → p.trunk = none → answer (misloaded ended) .misload none 0 0) ∧
     (∀ b, p.trunk = some t → r.booking? l = some b →
       let load (v : State) (release : Nat) : State := v.modTrunk t fun r => { r with
         window := r.window.map fun x => if x.label = l then { x with standing := .loaded } else x
         loadedQuarters := r.loadedQuarters + b.quarters, loadedKg := r.loadedKg + b.kg
         inFlight := r.inFlight - release }
       (p.state = .loadBound →
         let v := ((load ended 1).modPallet l fun q =>
           { q with state := .loaded, location := .trailer t }).releaseClaim l
         let ds := p.claimDoor.toList
         v.passesAlone (some t) ds → (v.afterPasses ds).attemptEnds t →
         answer (v.afterPasses ds) .loaded p.position 0 0) ∧
       (p.state = .held ∨ p.state = .laneBound ∨ p.state = .staged →
         let loaded := (load ((ended.releaseClaim l).modTrunk t fun r =>
           { r with held := r.held.filter (· ≠ l) }) 0).modPallet l fun q => { q with
             state := .loaded, location := .trailer t, flags := { q.flags with unplanned := true } }
         let order : Prop := p.drop = some .a ∧ ∃ x ∈ r.window, x.drop = .b ∧ x.standing = .unreleased
         let f := r.fit (s.classOf r).rows p.quarters p.bookingKg
         let left : Trunk := { r with
           window := r.window.map fun x => if x.label = l then { x with standing := .loaded } else x }
         let ds := (p.claimDoor.toList ++
           if left.loadingDrop ≠ r.loadingDrop then [d] else []).dedup
         (∀ v, f.target? = none → v = (loaded.modPallet l fun q =>
             { q with flags := { q.flags with noFit := true } }) →
           let w := if order then v.raise .misload (.label l) else v
           w.passesAlone (some t) ds → (w.afterPasses ds).attemptEnds t →
           answer (w.afterPasses ds) .loaded none 0 0) ∧
         (∀ pos, f.target? = some pos → let x := r.project (s.classOf r) p.bookingKg pos
           let v := (loaded.modTrunk t fun r => r.place f x p.quarters p.bookingKg).modPallet l fun q =>
             { q with position := some pos }
           let w := if order ∨ x.passes (s.classOf r) = false then v.raise .misload (.label l) else v
           w.passesAlone (some t) ds → (w.afterPasses ds).attemptEnds t →
           answer (w.afterPasses ds) .loaded (some pos) x.kingpin x.axle))) ∧
     (∀ u ru b, p.trunk = some u → u ≠ t → p.state ≠ .loaded → s.trunk? u = some ru →
       ru.booking? l = some b →
       let released := b.standing = .released
       let gone : Trunk := { ru with
         window := ru.window.filter (·.label ≠ l), bookedQuarters := ru.bookedQuarters - b.quarters
         bookedKg := ru.bookedKg - b.kg, held := ru.held.filter (· ≠ l)
         inFlight := if released then ru.inFlight - 1 else ru.inFlight }
       let v := misloaded (((ended.releaseClaim l).modTrunk u fun _ => gone).modPallet l (fun q =>
         { q with trunk := none, drop := none, position := none
                  excluded := excludeTrunk q.excluded u }) |>.raise .flush (.trunk u))
       let changed := ru.activeDoor?.isSome ∧ gone.loadingDrop ≠ ru.loadingDrop
       let served := if released ∨ changed then some u else none
       let ds := (p.claimDoor.toList ++ if changed then ru.activeDoor?.toList else []).dedup
       v.passesAlone served ds → (released ∨ changed → (v.afterPasses ds).attemptEnds u) →
       answer (v.afterPasses ds) .misload none 0 0))

/-- A REWORK scan ends the move, takes a booked pallet off its trunk and puts the pallet AT_REWORK;
of a LOADED one it raises MISLANE (Chapter 8, section 8.3, log 19, log 33, log 45). That an ACTIVE
trunk's attempt is made whenever a booking is withdrawn is log 33, that the verdict of a LOADED
pallet carries its position log 19 (both DEDUCED). That the verdict follows the reports that close
the event is the model's choice (log 45, DESIGN CHOICE). -/
def Obligations.ReworkScanTakesThePalletIn : Prop :=
  ∀ (s : State) (src : Address) (scan : ScanFields) (p : Pallet),
    s.ScanPasses .rework scan → s.pallet? scan.label = some p → p.label = scan.label →
    let entered := s.enterRepeat .rework scan.number.toNat scan.label
    let answer (t : State) : State := t.sendVerdict src (t.verdictOf 3 (clampScan scan) .atRework)
    (p.state = .exception ∨ p.state = .misloaded → exec (.reworkScan src scan) s =
      .next (answer ((entered.endMove scan.label).modPallet scan.label fun p =>
        { p with state := .atRework, location := .rework }).closeEvent)) ∧
    (p.state = .atRework →
      exec (.reworkScan src scan) s = .next (answer entered.closeEvent)) ∧
    (p.state = .loaded →
      let t := (entered.raise .mislane (.label scan.label)).closeEvent
      exec (.reworkScan src scan) s = .next (t.sendVerdict src
        { t.verdictOf 3 (clampScan scan) .mislane with position := p.position })) ∧
    ∀ u r b, (p.state = .held ∨ p.state = .laneBound ∨ p.state = .staged ∨ p.state = .loadBound) →
      p.trunk = some u → s.trunk? u = some r → r.booking? scan.label = some b →
      let gone : Trunk := { r with
        window := r.window.filter (·.label ≠ scan.label)
        bookedQuarters := r.bookedQuarters - b.quarters, bookedKg := r.bookedKg - b.kg
        held := r.held.filter (· ≠ scan.label)
        inFlight := if b.standing = .released then r.inFlight - 1 else r.inFlight }
      let v := (((entered.endMove scan.label).releaseClaim scan.label).modTrunk u fun _ =>
        gone).modPallet scan.label fun q => { q with
          trunk := none, drop := none, position := none, state := .atRework, location := .rework }
      let changed := r.activeDoor?.isSome ∧ gone.loadingDrop ≠ r.loadingDrop
      let served := if r.activeDoor?.isSome then some u else none
      let ds := (p.claimDoor.toList ++ if changed then r.activeDoor?.toList else []).dedup
      v.passesAlone served ds → (v.afterPasses ds).attemptEnds u →
      exec (.reworkScan src scan) s = .next (answer (v.afterPasses ds).closeEvent)

/-- SIGN_ON records the address and frees the mover, SIGN_OFF puts it OFF, each by the mover's state
(Chapter 6, sections 6.1 and 6.4). -/
def Obligations.MoverSignsOnAndOff : Prop :=
  ∀ (s : State) (src : Address) (mover : Byte), s.restart = none →
    let m := mover.toNat
    let u := s.modMover m fun x => { x with address := some src }
    let free (v : State) : State :=
      let w := v.modMover m fun x => { x with state := .free, move := none }
      if w.freeList.contains m then w else { w with freeList := w.freeList ++ [m] }
    let off (v : State) : State :=
      { v.modMover m (fun x => { x with state := .off, move := none }) with
        freeList := v.freeList.filter (· ≠ m) }
    (isMoverNumber m = true →
      ((s.mover m).state = .off ∨ (s.mover m).state = .silent →
        exec (.signOn src mover) s = .next (free u).closeEvent) ∧
      ((s.mover m).state = .free → exec (.signOn src mover) s = .next u.closeEvent) ∧
      ((s.mover m).state = .offered ∨ (s.mover m).state = .busy →
        exec (.signOn src mover) s = .next (free (u.giveBack m)).closeEvent) ∧
      ((s.mover m).state = .off → exec (.signOff mover) s = .next s.closeEvent) ∧
      ((s.mover m).state = .free ∨ (s.mover m).state = .silent →
        exec (.signOff mover) s = .next (off s).closeEvent) ∧
      ((s.mover m).state = .offered ∨ (s.mover m).state = .busy →
        exec (.signOff mover) s = .next (off (s.giveBack m)).closeEvent)) ∧
    (isMoverNumber m = false →
      exec (.signOn src mover) s = .next s ∧ exec (.signOff mover) s = .next s)

/-- ACCEPT of the offered move makes it ACCEPTED with its done deadline; a stale ACCEPT is answered
by a CANCEL (Chapter 6, sections 6.4 and 6.5, log 48). That a move number 0 is taken as any other
number is the model's choice (log 48, DESIGN CHOICE). -/
def Obligations.AcceptTakesTheOfferedMove : Prop :=
  ∀ (s : State) (mover : Byte) (n : BitVec 16), s.restart = none → isMoverNumber mover.toNat = true →
    let m := mover.toNat
    let cancel := s.sendDirective m (.cancel m n.toNat)
    (∀ p mv, (s.mover m).state = .offered → (s.mover m).move = some n.toNat →
      s.palletOfMove n.toNat = some p → s.pallet? p.label = some p → p.move = some mv →
      (s.clock.running = true → s.clock.value ≠ 86399) →
      exec (.accept mover n) s = .next ((s.modPallet p.label fun p => { p with move := some { mv with
          state := .accepted, acceptDeadline := none
          doneDeadline := some (min (s.clock.value + s.limits.doneTimeout) 86399) } }).modMover m
        fun x => { x with state := .busy }).closeEvent) ∧
    ((s.mover m).state = .offered ∨ (s.mover m).state = .busy → (s.mover m).move ≠ some n.toNat →
      exec (.accept mover n) s = .next cancel.closeEvent) ∧
    ((s.mover m).state = .busy → (s.mover m).move = some n.toNat →
      exec (.accept mover n) s = .next s.closeEvent) ∧
    ((s.mover m).state = .free → exec (.accept mover n) s = .next cancel.closeEvent) ∧
    ((s.mover m).state = .silent → exec (.accept mover n) s = .next (cancel.freeMover m).closeEvent) ∧
    ((s.mover m).state = .off → exec (.accept mover n) s = .next s.closeEvent)

/-- DECLINE of an offered and ABANDON of a held move return it to the front of its queue and free
the mover (Chapter 6, sections 6.2 and 6.4, log 48). That a move number 0 is taken as any other
number is the model's choice (log 48, DESIGN CHOICE). -/
def Obligations.DeclineAndAbandonGiveTheMoveBack : Prop :=
  ∀ (s : State) (mover : Byte) (n : BitVec 16), s.restart = none → isMoverNumber mover.toNat = true →
    let m := mover.toNat
    (∀ p mv, (s.mover m).move = some n.toNat → s.palletOfMove n.toNat = some p →
      s.pallet? p.label = some p → p.move = some mv →
      let back := ((s.modPallet p.label fun p => { p with move := some { mv with
          state := .queued, mover := none, overdue := false
          acceptDeadline := none, doneDeadline := none } }).setQueue mv.queue
        (p.label :: s.queue mv.queue)).freeMover m
      ((s.mover m).state = .offered → exec (.decline mover n) s = .next back.closeEvent) ∧
      ((s.mover m).state = .offered ∨ (s.mover m).state = .busy →
        exec (.abandon mover n) s = .next back.closeEvent)) ∧
    ((s.mover m).state = .silent →
      exec (.decline mover n) s = .next (s.freeMover m).closeEvent ∧
      exec (.abandon mover n) s = .next (s.freeMover m).closeEvent) ∧
    ((s.mover m).state = .off ∨ (s.mover m).state = .free ∨
      ((s.mover m).state ≠ .silent ∧ (s.mover m).move ≠ some n.toNat) →
      exec (.decline mover n) s = .next s.closeEvent ∧
      exec (.abandon mover n) s = .next s.closeEvent) ∧
    ((s.mover m).state = .busy → exec (.decline mover n) s = .next s.closeEvent)

/-- A reached accept deadline silences the mover and returns its move; a reached done deadline marks
the move overdue (Chapter 6, section 6.5, Chapter 3, section 3.1, log 2, log 23). That a deadline
not reached changes nothing is the model's choice (log 23, DESIGN CHOICE); that one reached
deadline's command takes its block's whole report is log 2 (DEDUCED). -/
def Obligations.ReachedTimeoutsSilenceOrMarkOverdue : Prop :=
  ∀ (s : State) (mover : Byte), let m := mover.toNat
    let report : State := moverNumbers.foldl (fun v k =>
      if v.acceptReached k then v.expireOffer k
      else if v.doneReached k then v.expireMove k else v) s
    (s.acceptReached m = true → exec (.acceptTimeout mover) s = .next report.closeEvent) ∧
    (s.doneReached m = true → exec (.doneTimeout mover) s = .next
      (if moverNumbers.any s.acceptReached then report.closeEvent else report)) ∧
    ((∀ k, k ≠ m → s.acceptReached k = false ∧ s.doneReached k = false) →
      ∀ n p mv, (s.mover m).move = some n →
      s.palletOfMove n = some p → s.pallet? p.label = some p → p.move = some mv →
      (s.acceptReached m = true →
        exec (.acceptTimeout mover) s = .next (({ (((s.modPallet p.label fun p => { p with
              move := some { mv with
                state := .queued, mover := none, overdue := false
                acceptDeadline := none, doneDeadline := none } }).setQueue mv.queue
            (p.label :: s.queue mv.queue)).modMover m
              fun x => { x with state := .silent, move := none }) with
            freeList := s.freeList.filter (· ≠ m) } : State).raise .moverSilent
              (.mover m)).closeEvent) ∧
      (s.doneReached m = true →
        exec (.doneTimeout mover) s = .next ((s.modPallet p.label fun p => { p with
            move := some { mv with overdue := true, doneDeadline := none } }).raise .moveOverdue
          (.label p.label)))) ∧
    (s.acceptReached m = false → exec (.acceptTimeout mover) s = .next s) ∧
    (s.doneReached m = false → exec (.doneTimeout mover) s = .next s)

/-- A reached close time makes an OPEN trunk CLOSING; a reached cut-off with nothing to flush makes
it DUE (Chapter 3, section 3.3, Chapter 3, section 3.1, log 2, log 23). That a deadline not reached
changes nothing is the model's choice (log 23, DESIGN CHOICE); that one reached deadline's command
takes its block's whole report is log 2 (DEDUCED). -/
def Obligations.CloseTimeAndCutoffChangeThePhase : Prop :=
  ∀ (s : State) (trunk : Byte), isTrunkNumber trunk.toNat = true → let t := trunk.toNat
    let closed (v : State) (u : Nat) : State :=
      (v.modTrunk u fun r => { r with phase := .closing }).raise .trunkClosing (.trunk u)
    (s.closeReached t = true → (∀ u, s.cutoffReached u = false) →
      exec (.closeTimeReached trunk) s = .next
        ((trunkNumbers.filter s.closeReached).foldl closed s)) ∧
    (∀ r, s.trunk? t = some r → s.cutoffReached t = true →
      (∀ u, u ≠ t → s.closeReached u = false ∧ s.cutoffReached u = false) →
      (∀ b ∈ r.window, b.standing ≠ .unreleased) →
      let due := (if r.phase = .opened then closed s t else s).modTrunk t fun r =>
        { r with phase := .due }
      let v := if r.window.any (·.standing = .released) then (due.raise .trunkDue (.trunk t)).closeEvent
        else due.closeEvent
      exec (.cutoffReached trunk) s = .next v ∧
      (s.closeReached t = true → exec (.closeTimeReached trunk) s = .next v)) ∧
    (s.closeReached t = false → exec (.closeTimeReached trunk) s = .next s) ∧
    (s.cutoffReached t = false → exec (.cutoffReached trunk) s = .next s)

/-- A cut-off flushes the UNRELEASED booking, and a pallet that no row serves goes to EXCEPTION with
a REWORK move (Chapter 3, section 3.3, Chapter 4, sections 4.5 and 4.6). -/
def Obligations.CutoffFlushThatNoTrunkTakesIsAnException : Prop :=
  ∀ (s : State) (trunk : Byte) (r : Trunk) (b : Booking) (p : Pallet), let t := trunk.toNat
    s.trunk? t = some r → s.cutoffReached t = true → isTrunkNumber t = true →
    (∀ u, u ≠ t → s.closeReached u = false ∧ s.cutoffReached u = false) → r.placement = .unplaced →
    r.window = [b] → b.standing = .unreleased → s.pallet? b.label = some p → p.label = b.label →
    p.state = .held → p.move = none → p.claimDoor = none →
    (p.depot.bind fun d => (s.bank s.active).rowFor p.cls d) = none → s.freeList = [] →
    ∃ v n, exec (.cutoffReached trunk) s = .next v ∧
      v.pallet? b.label = some { p with
        state := .exception, reason := some .rebookFailed, trunk := none, drop := none
        position := none, excluded := excludeTrunk p.excluded t
        move := some { number := n, kind := .rework, source := p.location, destination := .rework
                       queue := 0, state := .queued, mover := none, overdue := false
                       acceptDeadline := none, doneDeadline := none } } ∧
      v.trunk? t = some { r with
        phase := .due, window := [], bookedQuarters := r.bookedQuarters - b.quarters
        bookedKg := r.bookedKg - b.kg, held := r.held.filter (· ≠ b.label) } ∧
      v.queue 0 = s.queue 0 ++ [b.label] ∧
      (∀ l, l ≠ b.label → v.pallet? l = s.pallet? l) ∧ (∀ u, u ≠ t → v.trunk? u = s.trunk? u) ∧
      (∀ q, q ≠ 0 → v.queue q = s.queue q) ∧ v.doors = s.doors ∧ v.movers = s.movers ∧
      v.freeList = [] ∧ v.repeats = s.repeats ∧ v.bookingCounter = s.bookingCounter ∧
      (v.condition .flush).raw = true ∧ (v.condition .unrouted).raw = true ∧
      (v.condition .trunkDue).raw = true

/-- PUT_ZONE is tested and written as its five steps say, with the entries kept in ascending order
(R29). -/
def Obligations.PutZoneWritesOneEntry : Prop :=
  ∀ (s : State) (first last : ZoneCode) (depot hold : Byte), s.restart = none → s.standby.within →
    let c : Instr := .putZone first last depot hold
    let refuse (r : Result) : Prop := exec c s = .next (s.giveResult (s.isDue c) r none)
    let zs := s.standby.zones
    (zoneValue first = none ∨ zoneValue last = none → refuse .outOfRange) ∧
    ∀ f l, zoneValue first = some f → zoneValue last = some l →
      let x : ZoneEntry := { first := f, last := l, depot := depot.toNat, hold := hold = 1 }
      let write (zs' : List ZoneEntry) : Prop := exec c s = .next
        ((s.setStandby { s.standby with zones := zs' }).giveResult (s.isDue c) .done none)
      (l < f ∨ depot.toNat < 1 ∨ 250 < depot.toNat ∨ 1 < hold.toNat → refuse .outOfRange) ∧
      (f ≤ l → 1 ≤ depot.toNat → depot.toNat ≤ 250 → hold.toNat ≤ 1 →
        ((∃ e ∈ zs, e.first = f ∧ e.last = l) →
          write (zs.map fun e => if e.first = f ∧ e.last = l then x else e)) ∧
        ((∀ e ∈ zs, ¬(e.first = f ∧ e.last = l)) →
          ((∃ e ∈ zs, e.first ≤ l ∧ f ≤ e.last) → refuse .overlap) ∧
          ((∀ e ∈ zs, ¬(e.first ≤ l ∧ f ≤ e.last)) →
            (2048 ≤ zs.length → refuse .tableFull) ∧
            (zs.length < 2048 →
              write (zs.filter (·.first < f) ++ [x] ++ zs.filter (f < ·.first))))))

/-- DROP_ZONE removes the entry it names; PUT_DEPOT_ROW and DROP_DEPOT_ROW write one slot of the
standby bank (Chapter 2, section 2.4). -/
def Obligations.DropZoneAndDepotRowsEditTheStandbyBank : Prop :=
  ∀ (s : State) (first : ZoneCode) (depot cls count t1 t2 t3 t4 : Byte), s.restart = none →
    s.standby.rows.wf = true →
    let refuse (c : Instr) (r : Result) : Prop := exec c s = .next (s.giveResult (s.isDue c) r none)
    let write (c : Instr) (b : Bank) : Prop :=
      exec c s = .next ((s.setStandby b).giveResult (s.isDue c) .done none)
    let drop : Instr := .dropZone first
    let put : Instr := .putDepotRow depot cls count t1 t2 t3 t4
    let clear : Instr := .dropDepotRow depot cls
    let row := ([t1, t2, t3, t4].take count.toNat).map BitVec.toNat
    let slot := cls.toNat * 256 + depot.toNat
    let b := s.standby
    (zoneValue first = none → refuse drop .outOfRange) ∧
    (∀ f, zoneValue first = some f →
      ((∀ e ∈ b.zones, e.first ≠ f) → refuse drop .noSuch) ∧
      ((∃ e ∈ b.zones, e.first = f) →
        write drop { b with zones := b.zones.filter fun e => e.first ≠ f })) ∧
    (count.toNat < 1 ∨ 4 < count.toNat → refuse put .badRequest) ∧
    (1 ≤ count.toNat → count.toNat ≤ 4 →
      (isDepot depot.toNat = false ∨ 3 < cls.toNat ∨ (∃ t ∈ row, isTrunkNumber t = false) ∨
        ¬row.Nodup → refuse put .outOfRange) ∧
      (isDepot depot.toNat = true → cls.toNat ≤ 3 → (∀ t ∈ row, isTrunkNumber t = true) →
        row.Nodup → write put { b with rows := b.rows.put slot row })) ∧
    (isDepot depot.toNat = false ∨ 3 < cls.toNat → refuse clear .outOfRange) ∧
    (isDepot depot.toNat = true → cls.toNat ≤ 3 →
      (b.rows.get? slot = none → refuse clear .noSuch) ∧
      ((b.rows.get? slot).isSome → write clear { b with rows := b.rows.erase slot })) ∧
    (∀ k, (b.rows.put slot row).get? k = if k = slot then some row else b.rows.get? k) ∧
    (∀ k, (b.rows.erase slot).get? k = if k = slot then none else b.rows.get? k)

/-- COPY_BANK and CLEAR_BANK write the standby bank alone, SWITCH_BANK exchanges the roles; all are
always DONE (R33, R34, R35). -/
def Obligations.BankRequestsAreAlwaysDone : Prop :=
  (∀ s : State, s.restart = none →
     exec .copyBank s =
       .next ((s.setStandby (s.bank s.active)).giveResult (s.isDue .copyBank) .done none) ∧
     (s.setStandby (s.bank s.active)).standby = s.bank s.active ∧
     exec .clearBank s = .next ((s.setStandby { zones := [], rows := [] }).giveResult
       (s.isDue .clearBank) .done none) ∧
     (∀ b : Bank, (s.setStandby b).standby = b ∧ (s.setStandby b).active = s.active ∧
       (s.setStandby b).bank s.active = s.bank s.active) ∧
     ∀ zone cls depot, Bank.lookup { zones := [], rows := [] } zone cls = .noRoute ∧
       Bank.rowFor { zones := [], rows := [] } cls depot = none) ∧
  (∀ s : State, s.restart = none →
     let other : BankNumber := match s.active with
       | .bank0 => .bank1
       | .bank1 => .bank0
     exec .switchBank s = .next ((State.raise { s with active := other } .bankSwitch
       (.bank other)).giveResult (s.isDue .switchBank) .done none))

/-- READ_ZONE and READ_DEPOT_ROW return the bank of the role, its entry or row, and change nothing
(Chapter 2, section 2.5, log 37). That the bank number and entry count stand beside an absent entry
or row is log 37 (DEDUCED). -/
def Obligations.BankReadsReportTheBankOfTheRole : Prop :=
  ∀ (s : State) (role depot cls : Byte) (zone : ZoneCode),
    let rz : Instr := .readZone role zone
    let rr : Instr := .readDepotRow role depot cls
    let n : BankNumber := if role = 0 then s.active else s.active.other
    let b := s.bank n
    (s.takes rz 12 →
      (1 < role.toNat ∨ zoneValue zone = none →
        exec rz s = .next (s.giveResult (s.isDue rz) .outOfRange none)) ∧
      (∀ z, role.toNat ≤ 1 → zoneValue zone = some z → ∃ e,
        exec rz s = .next
          (s.giveResult (s.isDue rz) .done (some (.zone n b.zones.length e))) ∧
        (b.within → (∀ x ∈ b.zones, x.contains z = true → e = some x) ∧
          ((∀ x ∈ b.zones, x.contains z = false) →
            (∀ x, e = some x → x ∈ b.zones ∧ z < x.first ∧
              ∀ y ∈ b.zones, z < y.first → x.first ≤ y.first) ∧
            (e = none → ∀ y ∈ b.zones, ¬z < y.first))))) ∧
    (s.takes rr 7 →
      (1 < role.toNat ∨ isDepot depot.toNat = false ∨ 3 < cls.toNat →
        exec rr s = .next (s.giveResult (s.isDue rr) .outOfRange none)) ∧
      (role.toNat ≤ 1 → isDepot depot.toNat = true → cls.toNat ≤ 3 →
        exec rr s = .next (s.giveResult (s.isDue rr) .done
          (some (.row n (b.rows.get? (cls.toNat * 256 + depot.toNat)))))))

/-- START_SHIFT sets and starts the clock, STOP_SHIFT holds it, CLOCK_ADVANCE and an idle step (the
model's choice, log 5) move it (Chapter 3, section 3.1, log 3, log 5, log 6, log 7). When the
reports of an advance are taken is log 3 (DEDUCED), that an idle step is a period log 5 (DESIGN
CHOICE), what closes a report logs 6 and 7 (DEDUCED). -/
def Obligations.ClockStartsStopsAndAdvances : Prop :=
  (∀ (s : State) (time : BitVec 32),
     let trunksQuiet (v : State) : Prop := ∀ t, v.closeReached t = false ∧ v.cutoffReached t = false
     let moversQuiet (v : State) : Prop := ∀ m, v.acceptReached m = false ∧ v.doneReached m = false
     let moverReport (v : State) : State :=
       let w := moverNumbers.foldl (fun v k =>
         if v.acceptReached k then v.expireOffer k
         else if v.doneReached k then v.expireMove k else v) v
       if moverNumbers.any v.acceptReached then w.closeEvent else w
     let advanced (v : State) : State := { v with clock := if v.clock.running then
       { value := if v.clock.value < 86399 then v.clock.value + 1 else v.clock.value
         running := true, periods := 0 } else v.clock }
     (s.restart = none → let c : Instr := .startShift time
       (86399 < time.toNat → exec c s = .next (s.giveResult (s.isDue c) .outOfRange none)) ∧
       (time.toNat ≤ 86399 → s.clock.running = true →
         exec c s = .next (s.giveResult (s.isDue c) .wrongState none)) ∧
       (time.toNat ≤ 86399 → s.clock.running = false →
         let u : State := { s with clock := { value := time.toNat, running := true, periods := 0 } }
         trunksQuiet u →
         (moversQuiet u → exec c s = .next (u.giveResult (s.isDue c) .done none)) ∧
         (moverNumbers.any u.moverReached = true →
           exec c s = .next ((moverReport u).giveResult (s.isDue c) .done none)))) ∧
     (s.restart = none →
       let u : State := { s with clock := { value := s.clock.value, running := false, periods := 0 } }
       exec .stopShift s = .next (u.giveResult (s.isDue .stopShift) .done none) ∧
       ∀ deadline, u.reached deadline = false) ∧
     (trunksQuiet s → moversQuiet s → exec .clockAdvance s = .next (advanced s)) ∧
     (trunksQuiet s → moverNumbers.any s.moverReached = true →
       s.takeReports = .next (moverReport s) ∧
       exec .clockAdvance s = .next (advanced (moverReport s))) ∧
     (s.reportOwed = true → ∀ v, s.takeReports = .next v →
       exec .clockAdvance s = .next (advanced v))) ∧
  (∀ s : State, s.pending = [] →
     (s.reportOwed = true → step s = s.takeReports) ∧
     (s.clock.running = false → step s = .next s) ∧
     (s.reportOwed = false → s.clock.running = true → s.clock.periods + 1 < 25000000 →
       step s = .next { s with clock := { s.clock with periods := s.clock.periods + 1 } }) ∧
     (s.reportOwed = false → s.clock.running = true → 25000000 ≤ s.clock.periods + 1 →
       step s = .next { s with clock :=
         { value := if s.clock.value < 86399 then s.clock.value + 1 else s.clock.value
           running := true, periods := 0 } }))

/-- READ_CLOCK and READ_TRAILER_CLASS return the clock and the class slot as they stand, and change
nothing (R42, R45). -/
def Obligations.ClockAndTrailerClassAreRead : Prop :=
  (∀ s : State, s.takes .readClock 5 → exec .readClock s = .next (s.giveResult (s.isDue .readClock)
     .done (some (.clock s.clock.running s.clock.value)))) ∧
  (∀ (s : State) (cls : Byte), let c : Instr := .readTrailerClass cls
     s.takes c 19 →
     (7 < cls.toNat → exec c s = .next (s.giveResult (s.isDue c) .outOfRange none)) ∧
     (cls.toNat ≤ 7 → exec c s = .next (s.giveResult (s.isDue c) .done
       (some (.trailerClass ((s.classes.get? cls.toNat).map fun x =>
         (x, (s.trunks.filter fun e => e.2.cls = cls.toNat).length)))))) ∧
     (Record.trailerClass none).bytes = List.replicate 19 0)

/-- PUT_TRAILER_CLASS checks the ranges, refuses a class in use, and otherwise writes the nine
fields to its slot (Chapter 3, section 3.2). -/
def Obligations.TrailerClassIsPutUnlessInUse : Prop :=
  ∀ (s : State) (cls rows : Byte)
      (pitch front axle kingpinTare axleTare kingpinLimit axleLimit payload : BitVec 16),
    s.restart = none →
    let c : Instr := .putTrailerClass cls rows pitch front axle kingpinTare axleTare kingpinLimit
      axleLimit payload
    let x : TrailerClass :=
      { rows := rows.toNat, pitch := pitch.toNat, front := front.toNat, axle := axle.toNat
        kingpinTare := kingpinTare.toNat, axleTare := axleTare.toNat
        kingpinLimit := kingpinLimit.toNat, axleLimit := axleLimit.toNat
        payload := payload.toNat }
    let inRange : Prop := cls.toNat ≤ 7 ∧ 4 ≤ x.rows ∧ x.rows ≤ 16 ∧ 60 ≤ x.pitch ∧
      x.pitch ≤ 150 ∧ x.front ≤ 300 ∧ 300 ≤ x.axle ∧ x.axle ≤ 1500 ∧ x.kingpinTare ≤ 20000 ∧
      x.axleTare ≤ 20000 ∧ 1000 ≤ x.kingpinLimit ∧ x.kingpinLimit ≤ 30000 ∧
      1000 ≤ x.axleLimit ∧ x.axleLimit ≤ 40000 ∧ 1000 ≤ x.payload ∧ x.payload ≤ 30000
    (¬inRange → exec c s = .next (s.giveResult (s.isDue c) .outOfRange none)) ∧
    (inRange → (∃ e ∈ s.trunks, e.2.cls = cls.toNat) →
      exec c s = .next (s.giveResult (s.isDue c) .inUse none)) ∧
    (inRange → (∀ e ∈ s.trunks, e.2.cls ≠ cls.toNat) → exec c s =
      .next (({ s with classes := s.classes.put cls.toNat x }).giveResult (s.isDue c) .done none) ∧
      ∀ k, (s.classes.put cls.toNat x).get? k =
        if k = cls.toNat then some x else s.classes.get? k)

/-- PUT_TRUNK makes a record, or renews one without bookings keeping its placement, after its tests
(Chapter 3, section 3.3). -/
def Obligations.PutTrunkMakesOrRenewsTheRecord : Prop :=
  ∀ (s : State) (trunk dropA dropB cls : Byte) (cutoff : BitVec 32) (margin : BitVec 16),
    s.restart = none →
    let c : Instr := .putTrunk trunk dropA dropB cls cutoff margin
    let t := trunk.toNat
    let far : Option Nat := if dropB = 0 then none else some dropB.toNat
    let m := if margin = 0xFFFF then 900 else margin.toNat
    let inRange : Prop := isTrunkNumber t = true ∧ cls.toNat ≤ 7 ∧ isDepot dropA.toNat = true ∧
      (dropB ≠ 0 → isDepot dropB.toNat = true ∧ dropB ≠ dropA) ∧ cutoff.toNat ≤ 86399 ∧ m ≤ 7200
    let new : Trunk := { dropA := dropA.toNat, dropB := far, cls := cls.toNat
                         cutoff := cutoff.toNat, margin := m }
    (¬inRange → exec c s = .next (s.giveResult (s.isDue c) .outOfRange none)) ∧
    (inRange → s.classes.get? cls.toNat = none →
      exec c s = .next (s.giveResult (s.isDue c) .noSuch none)) ∧
    (inRange → (s.classes.get? cls.toNat).isSome →
      (∀ r, s.trunk? t = some r → r.window ≠ [] →
        exec c s = .next (s.giveResult (s.isDue c) .inUse none)) ∧
      -- the new phase against the clock (R48, R49): the close time, then the cut-off
      let closed (v : State) : State :=
        (v.modTrunk t fun r => { r with phase := .closing }).raise .trunkClosing (.trunk t)
      let tested (v : State) : State :=
        if s.clock.running = false ∨ s.clock.value < cutoff.toNat - m then v
        else if s.clock.value < cutoff.toNat then closed v
        else (closed v).modTrunk t fun r => { r with phase := .due }
      (s.trunk? t = none →
        exec c s = .next ((tested (s.addTrunk t new)).giveResult (s.isDue c) .done none)) ∧
      (∀ r, s.trunk? t = some r → r.window = [] →
        exec c s = .next ((tested (s.modTrunk t fun r => { r with
          dropA := dropA.toNat, dropB := far, cls := cls.toNat, cutoff := cutoff.toNat, margin := m
          phase := .opened, openPosition := none, fill := 0, topWeight := 0, plannedWeight := 0
          plannedMoment := 0, inFlight := 0 })).giveResult (s.isDue c) .done none)))

/-- SET_CUTOFF replaces cut-off and margin of a trunk not DUE, and reopens a CLOSING one whose close
time is ahead (Chapter 3, section 3.3). -/
def Obligations.SetCutoffReplacesTheDeadlines : Prop :=
  ∀ (s : State) (trunk : Byte) (cutoff : BitVec 32) (margin : BitVec 16), s.restart = none →
    let c : Instr := .setCutoff trunk cutoff margin
    let t := trunk.toNat
    let inRange : Prop := isTrunkNumber t = true ∧ cutoff.toNat ≤ 86399 ∧ margin.toNat ≤ 7200
    (¬inRange → exec c s = .next (s.giveResult (s.isDue c) .outOfRange none)) ∧
    (inRange → s.trunk? t = none → exec c s = .next (s.giveResult (s.isDue c) .noSuch none)) ∧
    ∀ r, inRange → s.trunk? t = some r →
      (r.phase = .due → exec c s = .next (s.giveResult (s.isDue c) .wrongState none)) ∧
      (r.phase ≠ .due →
        let close := cutoff.toNat - margin.toNat
        let phase : Phase := if r.phase = .closing ∧ s.clock.value < close then .opened else r.phase
        let v := s.modTrunk t fun r => { r with
          cutoff := cutoff.toNat, margin := margin.toNat, phase := phase }
        let closed := (v.modTrunk t fun r => { r with phase := .closing }).raise .trunkClosing (.trunk t)
        let due := (if phase = .opened then closed else v).modTrunk t fun r => { r with phase := .due }
        let done (w : State) : Prop :=
          exec c s = .next (w.closeEvent.giveResult (s.isDue c) .done none)
        (s.clock.running = false ∨ s.clock.value < close → done v) ∧
        (s.clock.running = true → close ≤ s.clock.value → s.clock.value < cutoff.toNat →
          done (if r.phase = .opened then closed else v)) ∧
        (s.clock.running = true → cutoff.toNat ≤ s.clock.value →
          (∀ b ∈ r.window, b.standing ≠ .unreleased) →
          done (if r.window.any (·.standing = .released) then due.raise .trunkDue (.trunk t)
            else due)))

/-- DROP_TRUNK is refused for a trunk with freight, and else flushes its bookings, hands its door
over and removes it (Chapter 3, sections 3.3 and 3.4, Chapter 4, sections 4.5 and 4.6, log 36). The
place of the BALANCE_HOLD report in the hand-over is log 36 (DEDUCED). -/
def Obligations.DropTrunkRemovesAnEmptyTrunk : Prop :=
  ∀ (s : State) (trunk : Byte), s.restart = none →
    let c : Instr := .dropTrunk trunk
    let t := trunk.toNat
    (isTrunkNumber t = false → exec c s = .next (s.giveResult (s.isDue c) .outOfRange none)) ∧
    (isTrunkNumber t = true → s.trunk? t = none →
      exec c s = .next (s.giveResult (s.isDue c) .noSuch none)) ∧
    ∀ r, isTrunkNumber t = true → s.trunk? t = some r →
      ((∃ b ∈ r.window, b.standing = .loaded) ∨
        (∃ e ∈ s.pallets, e.2.state = .misloaded ∧ e.2.location = .trailer t) →
        exec c s = .next (s.giveResult (s.isDue c) .inUse none)) ∧
      (r.placement = .unplaced → r.window = [] →
        (∀ e ∈ s.pallets, ¬(e.2.state = .misloaded ∧ e.2.location = .trailer t)) →
        exec c s = .next ((s.dropTrunk t).closeEvent.giveResult (s.isDue c) .done none)) ∧
      ((∀ b ∈ r.window, b.standing ≠ .loaded) →
        (∀ e ∈ s.pallets, ¬(e.2.state = .misloaded ∧ e.2.location = .trailer t)) →
        let done (w : State) : Prop :=
          exec c s = .next ((w.dropTrunk t).closeEvent.giveResult (s.isDue c) .done none)
        let unplaced (v : State) : State := v.modTrunk t fun r => { r with placement := .unplaced }
        -- ACTIVE: the door hands over to its next trunk, if it has one
        (∀ d, r.placement = .active d → r.window = [] →
          let idle := ((unplaced s).modDoor d fun x =>
            { x with active := x.next, next := none, nextPending := false, hold := false })
          ((s.door d).next = none → done idle.reportBalanceHold.reportLanePressure) ∧
          ∀ u, (s.door d).next = some u → u ≠ t →
            let w := (idle.modTrunk u fun r => { r with placement := .active d }).reportBalanceHold
            w.passAlone d (some u) → (w.afterPass d).attemptEnds u → done (w.afterPass d)) ∧
        -- NEXT: the door's next trunk becomes absent
        (∀ d, r.placement = .next d → r.window = [] →
          let w := (unplaced s).modDoor d fun x => { x with next := none, nextPending := false }
          w.passAlone d none → done (w.afterPass d)) ∧
        -- UNPLACED with one booking: its HELD pallet is rebooked to the row's choice, or fails
        (∀ b p, r.placement = .unplaced → r.window = [b] → s.pallet? b.label = some p →
          p.label = b.label → p.state = .held → p.move = none → p.claimDoor = none →
          let row := p.depot.bind fun d => (s.bank s.active).rowFor p.cls d
          let gone (r : Trunk) : Trunk := { r with
            window := [], bookedQuarters := r.bookedQuarters - b.quarters
            bookedKg := r.bookedKg - b.kg, held := r.held.filter (· ≠ b.label) }
          let excluded := excludeTrunk p.excluded t
          let fallback := (row.map Prod.snd).getD p.flags.fallback
          let flushed := ((s.modTrunk t gone).modPallet b.label fun p => { p with
            trunk := none, drop := none, position := none, excluded := excluded
            flags := { p.flags with fallback := fallback } }).raise .flush (.trunk t)
          let choice := s.choose { p with excluded := excluded } ((row.map Prod.fst).getD [])
          (choice = none →
            done (((flushed.modPallet b.label fun p => { p with
              state := .exception, reason := some .rebookFailed }).raise .unrouted
                (.label b.label)).makeMove b.label .rework p.location .rework 0)) ∧
          ∀ x u, choice = some x → s.trunk? x.trunk = some u → u.placement = .unplaced →
            let booking : Booking :=
              { label := b.label, drop := x.drop, quarters := p.quarters, kg := p.bookingKg
                seq := s.bookingCounter, standing := .unreleased }
            done { flushed with
              bookingCounter := if s.bookingCounter < 4294967295 then s.bookingCounter + 1 else 1
              trunks := flushed.trunks.adjust x.trunk fun u => { u with
                window := joinWindow u.window booking
                bookedQuarters := u.bookedQuarters + p.quarters
                bookedKg := u.bookedKg + p.bookingKg
                held := u.held.filter (· ≠ b.label) ++ [b.label] }
              pallets := flushed.pallets.adjust b.label.toNat fun q => { q with
                trunk := some x.trunk, drop := some x.drop
                flags := { q.flags with spill := x.spill } } }))

/-- PLACE is tested in order and makes a trunk the active or the next trunk of a door (Chapter 3,
section 3.4, log 21). The model's choice: a PLACE whose mode byte is neither ACTIVE nor NEXT is the
command PLACE_ACTIVE with that byte (log 21, DESIGN CHOICE); that it is answered OUT_OF_RANGE is the
spec's. -/
def Obligations.PlaceMakesTheTrunkActiveOrNext : Prop :=
  ∀ (s : State) (trunk door mode : Byte), s.restart = none → mode ≠ 1 →
    let t := trunk.toNat
    let d := door.toNat
    let a : Instr := .placeActive trunk door mode
    let n : Instr := .placeNext trunk door
    let refuse (c : Instr) (r : Result) : Prop := exec c s = .next (s.giveResult (s.isDue c) r none)
    let numbers : Prop := isTrunkNumber t = true ∧ isDoorNumber d = true
    (¬numbers ∨ mode ≠ 0 → refuse a .outOfRange) ∧ (¬numbers → refuse n .outOfRange) ∧
    (numbers → s.trunk? t = none → (mode = 0 → refuse a .noSuch) ∧ refuse n .noSuch) ∧
    ∀ r, numbers → s.trunk? t = some r →
      ((s.door d).slots = 0 ∨ (∃ e, r.door? = some e ∧ e ≠ d) →
        (mode = 0 → refuse a .wrongState) ∧ refuse n .wrongState) ∧
      ((s.door d).slots ≠ 0 → (∀ e, r.door? = some e → e = d) →
        (mode = 0 → (s.door d).active.isSome → refuse a .inUse) ∧
        (mode = 0 → (s.door d).active = none → r.window = [] → r.held = [] →
          (s.door d).next = none ∨ (s.door d).next = some t →
          exec a s = .next (((s.modTrunk t fun r => { r with placement := .active d }).modDoor d
            fun x => if x.next = some t then
                { x with active := some t, next := none, nextPending := false }
              else { x with active := some t }).closeEvent.giveResult (s.isDue a) .done none)) ∧
        ((s.door d).next = some t →
          exec n s = .next (s.giveResult (s.isDue n) .done none)) ∧
        ((s.door d).next ≠ some t → (s.door d).active = some t → refuse n .wrongState) ∧
        ((s.door d).active = none → (s.door d).next = none → r.window = [] → r.held = [] →
          exec n s = .next (((s.modTrunk t fun r => { r with placement := .next d }).modDoor d
            fun x => { x with next := some t, nextPending := true }).closeEvent.giveResult
              (s.isDue n) .done none)) ∧
        (mode = 0 → (s.door d).active = none →
          let v := (s.modTrunk t fun r => { r with placement := .active d }).modDoor d fun x =>
            if x.next = some t then { x with active := some t, next := none, nextPending := false }
            else { x with active := some t }
          v.passAlone d (some t) → (v.afterPass d).attemptEnds t →
          exec a s = .next ((v.afterPass d).closeEvent.giveResult (s.isDue a) .done none)) ∧
        ((s.door d).next ≠ some t → (s.door d).active ≠ some t →
          let placed (v : State) : State :=
            (v.modTrunk t fun r => { r with placement := .next d }).modDoor d fun x =>
              { x with next := some t, nextPending := true }
          let done (v : State) : Prop := v.passAlone d none →
            exec n s = .next ((v.afterPass d).closeEvent.giveResult (s.isDue n) .done none)
          ((s.door d).next = none → done (placed s)) ∧
          ∀ u, (s.door d).next = some u →
            let held : Prop := ∃ e ∈ s.pallets,
              e.2.trunk = some u ∧ (e.2.claimDoor = some d ∨ e.2.location = .lane d)
            (held → refuse n .inUse) ∧
            (¬held → done (placed (s.modTrunk u fun r => { r with placement := .unplaced })))))

/-- DEPART flushes what is not LOADED, frees the records in the trailer, hands the door over and
removes the trunk (Chapter 3, section 3.4, log 35, log 36). The order in which MISLOADED records are
freed is the model's choice (log 35, DESIGN CHOICE); the place of the BALANCE_HOLD report in the
hand-over is log 36 (DEDUCED). -/
def Obligations.DepartFreesTheTrailerAndHandsTheDoorOver : Prop :=
  ∀ (s : State) (trunk : Byte), s.restart = none →
    let c : Instr := .depart trunk
    let t := trunk.toNat
    (isTrunkNumber t = false → exec c s = .next (s.giveResult (s.isDue c) .outOfRange none)) ∧
    (isTrunkNumber t = true → s.trunk? t = none →
      exec c s = .next (s.giveResult (s.isDue c) .noSuch none)) ∧
    ∀ r, isTrunkNumber t = true → s.trunk? t = some r →
      ((∀ d, r.placement ≠ .active d) →
        exec c s = .next (s.giveResult (s.isDue c) .wrongState none)) ∧
      (∀ d, r.placement = .active d → (∀ b ∈ r.window, b.standing = .loaded) →
        (s.door d).next = none →
        let freed := (r.window.map Booking.label ++
          (s.pallets.filter fun e => e.2.state = .misloaded && e.2.location = .trailer t).map
            fun e => e.2.label).foldl State.freeRecord s
        let handed := (((freed.modTrunk t fun r => { r with placement := .unplaced }).modDoor d
          fun x => { x with active := none, next := none, nextPending := false, hold := false
            }).reportBalanceHold).reportLanePressure
        exec c s =
          .next ((handed.dropTrunk t).closeEvent.giveResult (s.isDue c) .done none)) ∧
      ∀ d, r.placement = .active d →
        let done (w : State) : Prop :=
          exec c s = .next ((w.dropTrunk t).closeEvent.giveResult (s.isDue c) .done none)
        let freed (v : State) : State := ((((v.trunk? t).map fun r =>
            (r.window.filter fun b => b.standing = .loaded).map Booking.label).getD []) ++
          (v.pallets.filter fun e => e.2.state = .misloaded && e.2.location = .trailer t).map
            fun e => e.2.label).foldl State.freeRecord v
        let handed (v : State) : State :=
          ((v.modTrunk t fun r => { r with placement := .unplaced }).modDoor d fun x =>
            { x with active := x.next, next := none, nextPending := false, hold := false })
        -- to a next trunk
        (∀ u, (∀ b ∈ r.window, b.standing = .loaded) → (s.door d).next = some u → u ≠ t →
          let w := ((handed (freed s)).modTrunk u fun r =>
            { r with placement := .active d }).reportBalanceHold
          w.passAlone d (some u) → (w.afterPass d).attemptEnds u → done (w.afterPass d)) ∧
        -- with one booking at the front that is not LOADED, whose HELD pallet no row serves
        (∀ b rest p, r.window = b :: rest → (∀ x ∈ rest, x.standing = .loaded) →
          b.standing = .unreleased → (∀ x ∈ rest, x.label ≠ b.label) → r.dropB = none →
          s.pallet? b.label = some p → p.label = b.label → p.state = .held → p.move = none →
          p.claimDoor = none → (p.depot.bind fun d => (s.bank s.active).rowFor p.cls d) = none →
          (s.door d).next = none →
          let flushed := ((((s.modTrunk t fun r => { r with
              window := rest, bookedQuarters := r.bookedQuarters - b.quarters
              bookedKg := r.bookedKg - b.kg, held := r.held.filter (· ≠ b.label) }).modPallet b.label
            fun p => { p with
              trunk := none, drop := none, position := none
              excluded := excludeTrunk p.excluded t }).raise .flush (.trunk t)).modPallet b.label
            fun p => { p with state := .exception, reason := some .rebookFailed }).raise .unrouted
              (.label b.label)
          done ((handed (freed (flushed.makeMove b.label .rework p.location .rework
            0))).reportBalanceHold.reportLanePressure))

/-- READ_TRUNK returns the trunk's record and up to 16 window entries from the start, and changes
nothing (Chapter 3, section 3.5). -/
def Obligations.ReadTrunkReturnsRecordAndWindow : Prop :=
  ∀ (s : State) (trunk start : Byte), s.restart = none →
    let c : Instr := .readTrunk trunk start
    (isTrunkNumber trunk.toNat = false ∨ 127 < start.toNat →
      exec c s = .next (s.giveResult (s.isDue c) .outOfRange none)) ∧
    (isTrunkNumber trunk.toNat = true → start.toNat ≤ 127 →
      (s.trunk? trunk.toNat = none → s.takes c 42 →
        exec c s = .next (s.giveResult (s.isDue c) .done (some (.trunk none)))) ∧
      ∀ r, s.trunk? trunk.toNat = some r →
        s.takes c (42 + 16 * min 16 (r.window.length - start.toNat)) →
        ∃ x : TrunkReport,
          exec c s = .next (s.giveResult (s.isDue c) .done (some (.trunk (some x)))) ∧
          x.dropA = r.dropA ∧ x.dropB = r.dropB ∧ x.cls = r.cls ∧ x.cutoff = r.cutoff ∧
          x.margin = r.margin ∧ x.closeTime = r.cutoff - r.margin ∧ x.placement = r.placement ∧
          x.phase = r.phase ∧ x.bookedQuarters = r.bookedQuarters ∧ x.bookedKg = r.bookedKg ∧
          x.loadedQuarters = r.loadedQuarters ∧ x.loadedKg = r.loadedKg ∧
          x.windowLength = r.window.length ∧
          x.unreleased = r.window.countP (·.standing = .unreleased) ∧
          x.released = r.window.countP (·.standing = .released) ∧
          x.loaded = r.window.countP (·.standing = .loaded) ∧
          x.unreleased + x.released + x.loaded = x.windowLength ∧
          x.heldLength = r.held.length ∧ x.openPosition = r.openPosition ∧ x.fill = r.fill ∧
          x.topWeight = r.topWeight ∧ x.plannedWeight = r.plannedWeight ∧
          x.plannedMoment = r.plannedMoment ∧ x.inFlight = r.inFlight ∧
          ∀ i, x.entries[i]? = if i < 16 then r.window[start.toNat + i]? else none)

/-- SET_DOOR is tested in order, replaces the four settings of a door and runs its grant pass, and
changes nothing when they are the same (Chapter 3, section 3.4, log 42). The order of the passes at
several other doors, in the last clause that of the grants that released their claims, is the
model's choice (log 42, DESIGN CHOICE). -/
def Obligations.SetDoorReplacesTheSettings : Prop :=
  ∀ (s : State) (door slots reserve depth burst : Byte), s.restart = none →
    let c : Instr := .setDoor door slots reserve depth burst
    let x := s.door door.toNat
    let y : Door := { x with slots := slots.toNat, reserve := reserve.toNat
                             depth := depth.toNat, burst := burst.toNat }
    let inRange : Prop := isDoorNumber door.toNat = true ∧ slots.toNat ≤ 24 ∧ reserve.toNat ≤ 23 ∧
      1 ≤ depth.toNat ∧ depth.toNat ≤ 4 ∧ burst.toNat ≤ 4 ∧ (slots ≠ 0 → reserve.toNat < slots.toNat)
    let inUse : Prop := slots.toNat < x.claims ∨ (slots = 0 ∧ (x.active.isSome ∨ x.next.isSome))
    (¬inRange → exec c s = .next (s.giveResult (s.isDue c) .outOfRange none)) ∧
    (inRange → inUse → exec c s = .next (s.giveResult (s.isDue c) .inUse none)) ∧
    (inRange → ¬inUse → y = x → exec c s = .next (s.giveResult (s.isDue c) .done none)) ∧
    (inRange → ¬inUse → y ≠ x →
      let d := door.toNat
      let v := s.modDoor d fun _ => y
      (x.active = none → x.next = none →
        exec c s = .next (v.closeEvent.giveResult (s.isDue c) .done none)) ∧
      -- the pass at the door, the attempt it requests, the passes at the doors it took claims from
      (let g := v.grantPass d
       (∀ t, g.staged = true → (g.state.door d).active = some t → g.state.attemptEnds t) →
       g.doors.length ≤ 24 → g.state.passesAlone none g.doors →
       let w := (g.state.afterPasses g.doors).reportLanePressure
       exec c s = .next (w.closeEvent.giveResult (s.isDue c) .done none)))

/-- READ_DOOR and READ_MOVER return the door and the mover as they stand, and change nothing (R60,
R120). -/
def Obligations.DoorAndMoverAreRead : Prop :=
  (∀ (s : State) (door : Byte), let c : Instr := .readDoor door
     let x := s.door door.toNat
     s.takes c 11 →
     (door.toNat < 1 ∨ 48 < door.toNat →
       exec c s = .next (s.giveResult (s.isDue c) .outOfRange none)) ∧
     (1 ≤ door.toNat → door.toNat ≤ 48 → exec c s = .next (s.giveResult (s.isDue c) .done
       (some (.door { slots := x.slots, reserve := x.reserve, depth := x.depth, burst := x.burst
                      active := x.active, next := x.next, nextPending := x.nextPending
                      claims := x.claims, hold := x.hold
                      queueLength := (s.queue door.toNat).length }))))) ∧
  (∀ (s : State) (mover : Byte), let c : Instr := .readMover mover
     let m := mover.toNat
     s.takes c 20 →
     (m < 1 ∨ 32 < m → exec c s = .next (s.giveResult (s.isDue c) .outOfRange none)) ∧
     (1 ≤ m → m ≤ 32 → ∃ place, exec c s = .next (s.giveResult (s.isDue c) .done
       (some (.mover { state := (s.mover m).state, address := (s.mover m).address
                       move := (s.mover m).move
                       label := ((s.mover m).move.bind s.palletOfMove).map Pallet.label
                       place := place, freeLength := s.freeList.length
                       queue0Length := (s.queue 0).length }))) ∧
       (m ∉ s.freeList → place = 0) ∧
       (m ∈ s.freeList → 1 ≤ place ∧ s.freeList[place - 1]? = some m ∧
         ∀ i, i + 1 < place → s.freeList[i]? ≠ some m)))

/-- FORCE_RELEASE releases the first candidate that fits without the balance test, flags it FORCED
and reports its loads (Chapter 7, section 7.3). -/
def Obligations.ForcedReleaseTakesTheFirstFittingCandidate : Prop :=
  ∀ (s : State) (door : Byte), let c : Instr := .forceRelease door
    let d := door.toNat
    s.takes c 16 →
    (isDoorNumber d = false → exec c s = .next (s.giveResult (s.isDue c) .outOfRange none)) ∧
    (isDoorNumber d = true → (s.door d).active = none →
      exec c s = .next (s.giveResult (s.isDue c) .wrongState none)) ∧
    ∀ t r, isDoorNumber d = true → (s.door d).active = some t → s.trunk? t = some r →
      (r.phase = .due ∨ (s.door d).depth ≤ r.inFlight →
        exec c s = .next (s.giveResult (s.isDue c) .wrongState none)) ∧
      (r.phase ≠ .due → r.inFlight < (s.door d).depth →
        (∀ pre b rest p, s.firstCandidate r d pre b rest →
          (r.fit (s.classOf r).rows b.quarters b.kg).target? = some p →
          let x := r.project (s.classOf r) b.kg p
          let v := (s.releaseBooking t d b (r.fit (s.classOf r).rows b.quarters b.kg) p x).modPallet
            b.label fun q => { q with flags := { q.flags with forced := true } }
          let u := if (s.door d).hold then v.reportBalanceHold else v
          let done (w : State) : Prop := exec c s =
            .next (w.closeEvent.giveResult (s.isDue c) .done (some (.release (some
              { label := b.label, position := p, kingpin := x.kingpin, axle := x.axle }))))
          let left := (r.setStanding b.label .released).loadingDrop
          (left = r.loadingDrop → done u) ∧
          (left ≠ r.loadingDrop → u.passAlone d none → done (u.afterPass d))) ∧
        (r.window.length ≤ 128 → (∀ b ∈ r.window, s.isCandidate r d b = false) →
          exec c s = .next (s.closeEvent.giveResult (s.isDue c) .done (some (.release none)))) ∧
        (∀ b p, r.window = [b] → r.loadingDrop = .a → s.isCandidate r d b = true →
          (r.fit (s.classOf r).rows b.quarters b.kg).target? = none →
          s.pallet? b.label = some p → p.label = b.label → p.move = none →
          (p.depot.bind fun e => (s.bank s.active).rowFor p.cls e) = none →
          let flushed := ((((s.modTrunk t fun r => { r with
              window := [], bookedQuarters := r.bookedQuarters - b.quarters
              bookedKg := r.bookedKg - b.kg, held := r.held.filter (· ≠ b.label) }).modPallet b.label
            fun q => { q with
              trunk := none, drop := none, position := none
              excluded := excludeTrunk q.excluded t }).raise .flush (.trunk t)).modPallet b.label
            fun q => { q with state := .exception, reason := some .rebookFailed }).raise .unrouted
              (.label b.label)
          let v := (flushed.releaseClaim b.label).makeMove b.label .rework p.location .rework 0
          v.passAlone d none →
          exec c s = .next ((v.afterPass d).closeEvent.giveResult (s.isDue c) .done
            (some (.release none)))))

/-- A release makes the booking RELEASED and the pallet LOAD_BOUND, plans its weight, and queues a
LOAD move (Chapter 7, section 7.2, Chapter 6, section 6.2). -/
def Obligations.ReleaseWritesBookingPalletTrunkAndMove : Prop :=
  ∀ (s : State) (t d p : Nat) (b : Booking) (x : Projection) (q : Pallet) (r : Trunk),
    1 ≤ d → d ≤ 48 → s.trunk? t = some r → s.pallet? b.label = some q → q.label = b.label →
    ∀ f, f = .fresh p ∨ f = .stack p →
    let u := s.releaseBooking t d b f p x
    let fresh : Prop := f = .fresh p
    u.trunk? t = some { r with
      window := r.window.map fun y => if y.label = b.label then { y with standing := .released } else y
      plannedWeight := x.weight, plannedMoment := x.moment
      openPosition := if fresh then some p else r.openPosition
      fill := if fresh then b.quarters else r.fill + b.quarters, topWeight := b.kg, inFlight := r.inFlight + 1 } ∧
    (∃ n, 1 ≤ n ∧ n ≤ 65535 ∧ u.lastMove = n ∧ u.pallet? b.label = some { q with
      state := .loadBound, position := some p
      move := some { number := n, kind := .load, source := .lane d, destination := .trailer t
                     queue := d, state := .queued, mover := none } }) ∧
    u.queue d = s.queue d ++ [b.label] ∧ u.door d = { s.door d with hold := false } ∧
    (∀ l, l ≠ b.label → u.pallet? l = s.pallet? l) ∧ (∀ k, k ≠ t → u.trunk? k = s.trunk? k) ∧
    (∀ k, k ≠ d → u.queue k = s.queue k ∧ u.door k = s.door k) ∧ u.movers = s.movers ∧
    u.freeList = s.freeList ∧ u.conditions = s.conditions ∧ u.bookingCounter = s.bookingCounter

/-- READ_PALLET returns the record of a label; REMOVE_PALLET frees one in EXCEPTION or AT_REWORK
(Chapter 1, section 1.4, Chapter 8, section 8.5). -/
def Obligations.PalletIsReadAndRemoved : Prop :=
  ∀ (s : State) (label : Label),
    let rd : Instr := .readPallet label
    let rm : Instr := .removePallet label
    let decimal : Prop := ∀ i, i < 12 → label.toNat / 16 ^ i % 16 ≤ 9
    (s.takes rd 52 →
      (¬decimal → exec rd s = .next (s.giveResult (s.isDue rd) .outOfRange none)) ∧
      (decimal → exec rd s =
        .next (s.giveResult (s.isDue rd) .done (some (.pallet (s.pallet? label)))))) ∧
    (s.restart = none →
      (¬decimal → exec rm s = .next (s.giveResult (s.isDue rm) .outOfRange none)) ∧
      (decimal → s.pallet? label = none →
        exec rm s = .next (s.giveResult (s.isDue rm) .noSuch none)) ∧
      ∀ p, decimal → s.pallet? label = some p →
        (p.state ≠ .exception → p.state ≠ .atRework →
          exec rm s = .next (s.giveResult (s.isDue rm) .wrongState none)) ∧
        (p.state = .exception ∨ p.state = .atRework →
          let freed := (((s.withdrawMove label).releaseClaim label).dropPallet label).reportCount
          exec rm s = .next (freed.closeEvent.giveResult (s.isDue rm) .done none) ∧
          (s.pallets.wf = true → freed.pallet? label = none ∧
            freed.pallets.length + 1 = s.pallets.length)))

/-- CLEAR_NOTICE, SET_NOTICE and SET_CHANNEL write the named conditions or the channel and nothing
else (Chapter 9, section 9.5, log 22). SET_CHANNEL's presence code, 1 present and 0 absent, is log
22 (DEDUCED). -/
def Obligations.NoticeRequestsWriteTheConditions : Prop :=
  ∀ (s : State) (set : BitVec 16) (ea eb both keep channel presence : Byte) (address : Address),
    s.restart = none →
    let cl : Instr := .clearNotice set
    let sn : Instr := .setNotice set ea eb both keep
    let sc : Instr := .setChannel channel presence address
    let addr : Option Address := if presence = 1 then some address else none
    let valid : Prop := ea.toNat ≤ 1 ∧ eb.toNat ≤ 1 ∧ both.toNat ≤ 1 ∧ keep.toNat ≤ 2
    (∃ v, exec cl s = .next (State.giveResult { s with conditions := v } (s.isDue cl) .done none) ∧
      ∀ c : CondName, State.condition { s with conditions := v } c =
        if set.getLsbD (c.number - 1) then
          { s.condition c with
            raw := decide (c.number ≤ 4) && (s.condition c).raw, status := false, subject := none }
        else s.condition c) ∧
    (¬valid → exec sn s = .next (s.giveResult (s.isDue sn) .outOfRange none)) ∧
    (valid → ∃ v, exec sn s = .next (State.giveResult { s with
        conditions := v, keepAll := if keep = 2 then s.keepAll else decide (keep = 1) }
        (s.isDue sn) .done none) ∧
      ∀ c : CondName, State.condition { s with conditions := v } c =
        if set.getLsbD (c.number - 1) then
          { s.condition c with
            enableA := decide (ea = 1), enableB := decide (eb = 1)
            bothWays := if c.number ≤ 4 then decide (both = 1) else (s.condition c).bothWays }
        else s.condition c) ∧
    (1 < channel.toNat ∨ 1 < presence.toNat →
      exec sc s = .next (s.giveResult (s.isDue sc) .outOfRange none)) ∧
    (channel.toNat ≤ 1 → presence.toNat ≤ 1 →
      (channel = 0 →
        exec sc s = .next (State.giveResult { s with channelA := addr } (s.isDue sc) .done none)) ∧
      (channel = 1 →
        exec sc s = .next (State.giveResult { s with channelB := addr } (s.isDue sc) .done none)))

/-- A raise sets the raw value, and sets the status and sends its notices when it is clear and
enabled (Chapter 9, sections 9.2 to 9.5). -/
def Obligations.RaisedConditionSetsItsStatusOnce : Prop :=
  (∀ (s : State) (c : CondName) (subject : Subject),
    let r := s.condition c
    let on := r.enableA || r.enableB || s.keepAll
    let notice : OwnBody := .notice
      { condition := c, subject := some subject, raw := true, time := s.clock.value }
    let send (u : State) (enable : Bool) (channel : Option Address) : State :=
      match enable, channel with
      | true, some a => u.placeOwn .yard a notice
      | _, _ => u
    (r.raw = true → s.raise c subject = s) ∧
    (r.raw = false → (on && !r.status) = false →
      s.raise c subject = s.modCondition c fun r => { r with raw := true }) ∧
    (r.raw = false → (on && !r.status) = true →
      let u := s.modCondition c fun r => { r with raw := true, status := true, subject := some subject }
      s.raise c subject = send (send u r.enableA s.channelA) r.enableB s.channelB)) ∧
  ∀ (s : State) (value : BitVec 16), s.restart = none → exec (.testNotice value) s =
    .next ((s.raise .test (.test value.toNat)).giveResult (s.isDue (.testNotice value)) .done none)

/-- After an event is closed, LANE_PRESSURE and MOVERS_SHORT tell whether a lane is full or movers
are short (Chapter 5, section 5.3, Chapter 6, section 6.6). -/
def Obligations.ClosedEventReportsTheLevels : Prop :=
  ∀ s : State, let t := s.closeEvent
    ((t.condition .moversShort).raw = true ↔
      t.freeList = [] ∧ ∃ q, q < 49 ∧ t.queue q ≠ []) ∧
    ((t.condition .lanePressure).raw = true ↔
      ∃ d, 1 ≤ d ∧ d ≤ 48 ∧ (t.door d).claims = (t.door d).slots ∧
        ∃ k r, ((t.door d).active = some k ∨ (t.door d).next = some k) ∧ t.trunk? k = some r ∧
          r.held ≠ [])

/-- SET_LIMITS and SET_OUTPUTS replace limits and verdict address; READ_NOTICES and READ_SETTINGS
return what stands (Chapter 10, section 10.4, Chapter 9, sections 9.2 and 9.5). -/
def Obligations.LimitsOutputsAndNoticesAreSetAndRead : Prop :=
  (∀ (s : State) (rw acc : Byte) (dn al th hw : BitVec 16) (address : Address), s.restart = none →
     let c : Instr := .setLimits rw acc dn al th hw
     let inRange : Prop := 1 ≤ rw.toNat ∧ rw.toNat ≤ 60 ∧ 5 ≤ acc.toNat ∧ acc.toNat ≤ 120 ∧
       60 ≤ dn.toNat ∧ dn.toNat ≤ 1800 ∧ 10 ≤ al.toNat ∧ al.toNat ≤ 300 ∧ th.toNat ≤ 3600 ∧
       256 ≤ hw.toNat ∧ hw.toNat ≤ 4096
     let u := State.reportCount { s with limits :=
       { repeatWindow := rw.toNat, acceptTimeout := acc.toNat, doneTimeout := dn.toNat
         allowance := al.toNat, threshold := th.toNat, highWater := hw.toNat } }
     (¬inRange → exec c s = .next (s.giveResult (s.isDue c) .outOfRange none)) ∧
     (inRange → exec c s = .next (u.giveResult (s.isDue c) .done none)) ∧
     ((u.condition .tableHigh).raw = true ↔ hw.toNat ≤ s.pallets.length) ∧
     u.pallets = s.pallets ∧ u.repeats = s.repeats ∧ u.floor = s.floor ∧
     (∀ k, k ≠ .tableHigh → u.condition k = s.condition k) ∧
     exec (.setOutputs address) s = .next (State.giveResult { s with verdictAddress := address }
       (s.isDue (.setOutputs address)) .done none)) ∧
  (∀ s : State,
     (s.takes .readNotices 207 → exec .readNotices s = .next (s.giveResult (s.isDue .readNotices)
       .done (some (.notices { conditions := s.conditions.toList, keepAll := s.keepAll
                               channelA := s.channelA, channelB := s.channelB })))) ∧
     (s.takes .readSettings 25 → exec .readSettings s = .next (s.giveResult (s.isDue .readSettings)
       .done (some (.settings { limits := s.limits, verdictAddress := s.verdictAddress
                                hub := s.hub, unit := s.unit, frames := s.frames.length })))))

/-- RESTART is DONE, gives every later request of its frame NOT_RUN, and is pending until its reply
has ended (Chapter 10, section 10.5, log 11, log 16, log 18, log 21, log 25). The model's choice: a
RESTART that no frame carries (isDue = false) is pending with no reply (log 25, DESIGN CHOICE); a
kind byte that is neither kind is the command RESTART_FULL with that byte (log 21, DESIGN CHOICE);
`answer` is a field of the model's own (log 16, DESIGN CHOICE). The model's reading: on an idle YARD
the reply is in transmission at once (log 11, DEDUCED), and the turn is fixed as the request
completes (log 18, DEDUCED). -/
def Obligations.RestartEndsItsListAndWaitsForItsReply : Prop :=
  ∀ (s : State) (kind : Byte), s.restart = none → kind ≠ 1 →
    (kind ≠ 0 → exec (.restartFull kind) s =
      .next (s.giveResult (s.isDue (.restartFull kind)) .outOfRange none)) ∧
    ∀ k : RestartKind,
      let c : Instr := match k with
        | .full => .restartFull 0
        | .floor => .restartFloor
      let s' : State := { s with answer := some { result := .done, record := none } }
      (s.isDue c = false → exec c s = .next
        { s' with restart := some { kind := k, reply := none, begun := false } }) ∧
      ∀ f, s.isDue c = true → s.dueFrame = some f →
        let reply : OwnFrame :=
          { dest := f.source, hub := s.hub, unit := s.unit
            body := .reply { tag := f.tag, status := .done, records := f.records
                             results := f.results ++ [.done] ++
                               List.replicate (f.left.length - 1) .notRun } }
        let gone : State := { s' with
          frames := s.frames.eraseIdx s.turn
          turn := if s.turn + 1 < s.frames.length then s.turn else 0 }
        (s.yard.sending = none → exec c s = .next { gone with
          yard := { s.yard with sending := some (.own reply) }
          restart := some { kind := k, reply := none, begun := true } }) ∧
        (s.yard.sending.isSome → exec c s = .next { gone with
          restart := some { kind := k, reply := some reply, begun := false } })

/-- The fit test finds the target position, and the balance test bounds the exact loads by its
integer formulas (Chapter 7, section 7.2). -/
def Obligations.FitAndBalanceTestsFollowTheirFormulas : Prop :=
  (∀ (r : Trunk) (rows q w : Nat),
     (∀ p, r.openPosition = some p → 0 < r.fill → r.fill + q ≤ 4 → w ≤ r.topWeight →
       r.fit rows q w = .stack p) ∧
     ((∀ p, r.openPosition = some p → ¬(0 < r.fill ∧ r.fill + q ≤ 4 ∧ w ≤ r.topWeight)) →
       ∀ next, next = (match r.openPosition with
         | some p => p + 1
         | none => 0) →
         (next < 2 * rows → r.fit rows q w = .fresh next) ∧
         (2 * rows ≤ next → r.fit rows q w = .none))) ∧
  (∀ (t : Trunk) (c : TrailerClass) (w p : Nat), 0 < c.axle →
     let x := t.project c w p
     let m := t.plannedMoment + w * (2 * c.front + (2 * (p / 2) + 1) * c.pitch)
     x.weight = t.plannedWeight + w ∧ x.moment = m ∧
     (∃ k, x.axle = c.axleTare + k ∧ m ≤ 2 * c.axle * k ∧ ∀ j, m ≤ 2 * c.axle * j → k ≤ j) ∧
     (∃ k : Nat, x.kingpin = (c.kingpinTare : Int) + (t.plannedWeight + w) - k ∧ 2 * c.axle * k ≤ m ∧
       ∀ j, 2 * c.axle * j ≤ m → j ≤ k) ∧
     (x.passes c = true ↔ x.axle ≤ c.axleLimit ∧ x.kingpin ≤ c.kingpinLimit) ∧
     (2 * c.axle * c.axleTare + m ≤ 2 * c.axle * x.axle) ∧
     (2 * (c.axle : Int) * (c.kingpinTare + t.plannedWeight + w) - m ≤ 2 * c.axle * x.kingpin))

/-- The chosen candidate is the first that passes the six tests, and SPILL tells of an earlier one
without room (Chapter 4, section 4.3). -/
def Obligations.ChosenTrunkPassesTheSixTests : Prop :=
  (∀ (s : State) (p : Pallet) (candidates : List Nat) (c : Choice), s.choose p candidates = some c →
    (∃ r, s.trunk? c.trunk = some r ∧ r.phase = .opened ∧ c.trunk ∉ p.excluded ∧
      r.bookedQuarters + p.quarters ≤ 8 * (s.classOf r).rows ∧
      r.bookedKg + p.bookingKg ≤ (s.classOf r).payload ∧
      ((c.drop = .a ∧ p.depot = some r.dropA) ∨
        (c.drop = .b ∧ p.depot ≠ some r.dropA ∧ p.depot.isSome ∧ p.depot = r.dropB ∧
          ∀ b ∈ r.window, b.drop = .a → b.standing = .unreleased))) ∧
    1 ≤ c.index ∧ candidates[c.index - 1]? = some c.trunk ∧
    (∀ t ∈ candidates.take (c.index - 1), ∀ drop, s.testCandidate p t ≠ .passes drop) ∧
    (c.spill = true ↔ ∃ t ∈ candidates.take (c.index - 1), s.testCandidate p t = .noRoom)) ∧
  (∀ (s : State) (p : Pallet) (candidates : List Nat), s.choose p candidates = none ↔
    ∀ t ∈ candidates, ∀ drop, s.testCandidate p t ≠ .passes drop) ∧
  ∀ (s : State) (p : Pallet) (t : Nat),
    let opened (r : Trunk) : Prop := s.trunk? t = some r ∧ r.phase = .opened ∧ t ∉ p.excluded
    let serves (r : Trunk) (drop : Drop) : Prop :=
      (drop = .a ∧ p.depot = some r.dropA) ∨
        (drop = .b ∧ p.depot ≠ some r.dropA ∧ p.depot.isSome ∧ p.depot = r.dropB ∧
          ∀ b ∈ r.window, b.drop = .a → b.standing = .unreleased)
    let room (r : Trunk) : Prop := r.bookedQuarters + p.quarters ≤ 8 * (s.classOf r).rows ∧
      r.bookedKg + p.bookingKg ≤ (s.classOf r).payload
    (∀ drop, s.testCandidate p t = .passes drop ↔ ∃ r, opened r ∧ serves r drop ∧ room r) ∧
    (s.testCandidate p t = .noRoom ↔ ∃ r drop, opened r ∧ serves r drop ∧ ¬room r) ∧
    (s.testCandidate p t = .fails ↔ ∀ r drop, opened r → ¬serves r drop)

/-- A booking joins the tail of its drop's segment; every drop-B booking stays before every drop-A
one (Chapter 4, sections 4.1 and 4.4). -/
def Obligations.BookingKeepsTheFarDropFirst : Prop :=
  (∀ (w : List Booking) (b : Booking),
    w.Pairwise (fun x y => ¬(x.drop = .a ∧ y.drop = .b)) →
    (joinWindow w b).Pairwise (fun x y => ¬(x.drop = .a ∧ y.drop = .b)) ∧
    (joinWindow w b).filter (·.drop = b.drop) = w.filter (·.drop = b.drop) ++ [b] ∧
    (joinWindow w b).filter (·.drop ≠ b.drop) = w.filter (·.drop ≠ b.drop)) ∧
  ∀ (xs : List Nat) (t : Nat), xs.length ≤ 4 → xs.Nodup →
    (excludeTrunk xs t).length ≤ 4 ∧ (excludeTrunk xs t).Nodup ∧ t ∈ excludeTrunk xs t ∧
    (xs.length < 4 → t ∉ xs → excludeTrunk xs t = xs ++ [t]) ∧
    (xs.length = 4 → t ∉ xs → excludeTrunk xs t = xs.drop 1 ++ [t])

/-- Every step keeps claims within the slots and doors and trunks in agreement; so does a grant
pass, which grants in its one order (Chapter 3, section 3.4, Chapter 5, sections 5.1 and 5.2). -/
def Obligations.GrantPassKeepsClaimsWithinTheSlots : Prop :=
  (∀ s t : State, s.Safe → s.DoorsAgree → step s = .next t → t.DoorsAgree) ∧
  State.reset.DoorsAgree ∧
  (∀ (s : State) (d : Nat), (∀ e, (s.door e).claims ≤ (s.door e).slots) →
    let t := (s.grantPass d).state
    (∀ e, (t.door e).claims ≤ (t.door e).slots) ∧
    (∀ e, { t.door e with claims := 0 } = { s.door e with claims := 0 }) ∧
    (∀ k, (t.trunk? k).map (fun r => { r with held := [] }) =
      (s.trunk? k).map fun r => { r with held := [] })) ∧
  -- the pass: carry-over, then claims in order while the tests allow
  (∀ (s : State) (d : Nat),
    let x := s.door d
    let pass := s.grantPass d
    let start := (s.carryOverAll x.active d).carryOverAll x.next d
    let serving : Option Nat := x.active.filter fun t => (s.trunk? t).any fun r => r.phase ≠ .due
    let loading : Drop := ((serving.bind s.trunk?).map Trunk.loadingDrop).getD .a
    let waits (t : Option Nat) (wanted : Drop → Bool) : List Label :=
      match t.bind start.trunk? with
      | none => []
      | some r =>
          (r.window.filter fun b => wanted b.drop && (start.pallet? b.label).any fun p =>
            p.state = .staged && p.claimDoor = none).map Booking.label ++
          r.held.filter fun l => (start.pallet? l).any fun p => p.state = .held && p.drop.any wanted
    let first := waits serving (· = loading)
    let all := first ++ (waits serving (· ≠ loading) ++ waits x.next fun _ => true)
    let after (k : Nat) : State := (all.take k).foldl (fun v l => (v.grantClaim l d).1) start
    let room (k : Nat) : Prop := let y := (after k).door d
      if k < first.length then y.claims < y.slots else y.reserve < y.slots - y.claims
    let carries : Prop := ∃ t r, x.active = some t ∧ s.trunk? t = some r ∧
      ∃ l ∈ r.held, ∃ p, s.pallet? l = some p ∧ p.state = .held ∧ p.location = .lane d ∧
        p.claimDoor = some d
    ∃ n, n ≤ all.length ∧ pass.state = after n ∧ (∀ k < n, room k) ∧ (n < all.length → ¬room n) ∧
      pass.doors = (List.range n).flatMap (fun k => match all[k]? with
        | some l => ((after k).grantClaim l d).2.2.toList
        | none => []) ∧
      (pass.staged = true ↔ carries ∨ ∃ k l, k < n ∧ all[k]? = some l ∧
        ((after k).grantClaim l d).2.1 = true ∧ x.active.isSome ∧
          ((after (k + 1)).pallet? l).bind Pallet.trunk = x.active)) ∧
  (∀ (s : State) (t d : Nat) (r : Trunk), s.trunk? t = some r →
    s.carryOverAll (some t) d = r.held.foldl (fun v l => match v.pallet? l with
      | some p =>
          if p.state = .held ∧ p.location = .lane d ∧ p.claimDoor = some d then
            (v.modTrunk t fun r => { r with held := r.held.filter (· ≠ l) }).modPallet l fun p =>
              { p with state := .staged }
          else v
      | none => v) s) ∧
  -- one grant
  ∀ (s : State) (l : Label) (d t : Nat) (p : Pallet), s.pallet? l = some p →
    let claim (v : State) : State := (v.modDoor d fun x => { x with claims := x.claims + 1 }).modPallet
      l fun p => { p with claimDoor := some d }
    (p.state = .staged → s.grantClaim l d = (claim s, true, none)) ∧
    (p.state = .held → p.trunk = some t →
      let left := s.modTrunk t fun r => { r with held := r.held.filter (· ≠ l) }
      let freed := match p.claimDoor with
        | none => left
        | some e => (left.modDoor e fun x => { x with claims := x.claims - 1 }).modPallet l fun p =>
            { p with claimDoor := none, flags := { p.flags with mislaned := false } }
      let stands (x : PalletState) : State := (claim freed).modPallet l fun p => { p with state := x }
      (p.move.any (·.state = .accepted) = true →
        s.grantClaim l d = (stands .laneBound, false, p.claimDoor)) ∧
      (p.move.any (·.state = .accepted) = false →
        (p.location = .lane d → s.grantClaim l d = (stands .staged, true, p.claimDoor)) ∧
        (∀ n, p.location = .apron n → s.grantClaim l d =
          ((stands .laneBound).makeMove l .put (.apron n) (.lane d) d, false, p.claimDoor)) ∧
        (∀ e, e ≠ d → p.location = .lane e → s.grantClaim l d =
          ((stands .laneBound).makeMove l .shift (.lane e) (.lane d) d, false, p.claimDoor))))

/-- A door is urgent exactly when its active trunk is CLOSING or its slack is below the threshold
(Chapter 6, section 6.6). -/
def Obligations.DoorUrgencyFollowsPhaseAndSlack : Prop :=
  ∀ (s : State) (d : Nat),
    let weight (p : Pallet) : Nat :=
      match p.state, p.location, p.move.map Move.kind with
      | .held, .apron _, _ => 2
      | .held, .lane _, _ => 1
      | .laneBound, _, some .put => 2
      | .laneBound, _, some .shift => 1
      | .staged, _, _ => 1
      | .loadBound, _, _ => 1
      | _, _, _ => 0
    ((s.door d).active = none → s.urgentDoor d = false) ∧
    ∀ t r, (s.door d).active = some t → s.trunk? t = some r →
      let work := ((r.window.filter fun b => b.standing ≠ .loaded).map fun b =>
        ((s.pallet? b.label).map weight).getD 0).sum
      (s.urgentDoor d = true ↔ r.phase = .closing ∨
        ((r.cutoff : Int) - s.clock.value) - s.limits.allowance * work < s.limits.threshold)

/-- Every step leaves no free mover beside a waiting move and the rotation lists whole; so does a
grant attempt, which pairs head and front (Chapter 6, section 6.6). -/
def Obligations.GrantAttemptLeavesNoMoverBesideAMove : Prop :=
  (∀ s t : State, s.rotationWhole → s.NothingToGrant → step s = .next t →
    t.rotationWhole ∧ t.NothingToGrant) ∧
  (State.reset.rotationWhole ∧ State.reset.NothingToGrant) ∧
  (∀ s : State, s.rotationWhole → s.grantAttempt.NothingToGrant ∧ s.grantAttempt.rotationWhole) ∧
  ∀ (s : State) (m q : Nat) (ms : List Nat) (l : Label) (ls : List Label) (p : Pallet) (mv : Move),
    let urgent (k : Nat) : Prop := s.queue k ≠ [] ∧ k ≠ 0 ∧ s.urgentDoor k = true
    let normal (k : Nat) : Prop := s.queue k ≠ [] ∧ ¬(k ≠ 0 ∧ s.urgentDoor k = true)
    let firstOf (ks : List Nat) (eligible : Nat → Prop) : Prop :=
      ∃ pre post, ks = pre ++ q :: post ∧ eligible q ∧ ∀ k ∈ pre, ¬eligible k
    (s.chooseQueue = some q ↔
      firstOf s.urgent urgent ∨ ((∀ k ∈ s.urgent, ¬urgent k) ∧ firstOf s.normal normal)) ∧
    (s.freeList = [] ∨ s.chooseQueue = none → s.grantAttempt = s) ∧
    (s.freeList = m :: ms → m ∉ ms → s.chooseQueue = some q → s.queue q = l :: ls → l ∉ ls →
      s.pallet? l = some p → p.label = l → p.move = some mv →
      let n := s.burst q + 1
      let turns : Prop := (if q = 0 then 1 else 2 ^ (s.door q).burst) ≤ n
      let last (ks : List Nat) : List Nat := if turns then ks.filter (· ≠ q) ++ [q] else ks
      let counted : State := { s with
        freeList := ms, urgent := last s.urgent, normal := last s.normal
        bursts := s.bursts.setIfInBounds q (if turns then 0 else n)
        queues := s.queues.setIfInBounds q ls }
      let offered := (counted.modPallet l fun _ => { p with move := some { mv with
        state := .offered, mover := some m
        acceptDeadline := some (min (s.clock.value + s.limits.acceptTimeout) 86399) } }).modMover m
          fun x => { x with state := .offered, move := some mv.number }
      let load : Prop := mv.kind = .load
      let sent := match (s.mover m).address with
        | none => offered
        | some a => offered.placeOwn .floor a (.directive (.offer m mv.number mv.kind l mv.source
            mv.destination (if load then p.trunk else none) (if load then p.position else none)))
      s.grantAttempt =
        (if s.clock.running = true ∧ s.clock.value = 86399 then sent.expireOffer m
         else sent).grantAttempt)
end

