-- ==== Sys2Proof/Laws/State.lean ====
section
/-! SUPPORT. The fields of the state after each named update: one lemma per field per update. -/

namespace Sys2Proof.Machine

/-! ## modPallet -/

@[simp] theorem State.modPallet_floor (s : State) (l : Label) (f : Pallet → Pallet) :
    (s.modPallet l f).floor = s.floor := rfl
@[simp] theorem State.modPallet_yard (s : State) (l : Label) (f : Pallet → Pallet) :
    (s.modPallet l f).yard = s.yard := rfl
@[simp] theorem State.modPallet_hub (s : State) (l : Label) (f : Pallet → Pallet) :
    (s.modPallet l f).hub = s.hub := rfl
@[simp] theorem State.modPallet_unit (s : State) (l : Label) (f : Pallet → Pallet) :
    (s.modPallet l f).unit = s.unit := rfl
@[simp] theorem State.modPallet_repeats (s : State) (l : Label) (f : Pallet → Pallet) :
    (s.modPallet l f).repeats = s.repeats := rfl
@[simp] theorem State.modPallet_pallets (s : State) (l : Label) (f : Pallet → Pallet) :
    (s.modPallet l f).pallets = s.pallets.adjust l.toNat f := rfl
@[simp] theorem State.modPallet_bank0 (s : State) (l : Label) (f : Pallet → Pallet) :
    (s.modPallet l f).bank0 = s.bank0 := rfl
@[simp] theorem State.modPallet_bank1 (s : State) (l : Label) (f : Pallet → Pallet) :
    (s.modPallet l f).bank1 = s.bank1 := rfl
@[simp] theorem State.modPallet_active (s : State) (l : Label) (f : Pallet → Pallet) :
    (s.modPallet l f).active = s.active := rfl
@[simp] theorem State.modPallet_clock (s : State) (l : Label) (f : Pallet → Pallet) :
    (s.modPallet l f).clock = s.clock := rfl
@[simp] theorem State.modPallet_classes (s : State) (l : Label) (f : Pallet → Pallet) :
    (s.modPallet l f).classes = s.classes := rfl
@[simp] theorem State.modPallet_trunks (s : State) (l : Label) (f : Pallet → Pallet) :
    (s.modPallet l f).trunks = s.trunks := rfl
@[simp] theorem State.modPallet_bookingCounter (s : State) (l : Label) (f : Pallet → Pallet) :
    (s.modPallet l f).bookingCounter = s.bookingCounter := rfl
@[simp] theorem State.modPallet_doors (s : State) (l : Label) (f : Pallet → Pallet) :
    (s.modPallet l f).doors = s.doors := rfl
@[simp] theorem State.modPallet_movers (s : State) (l : Label) (f : Pallet → Pallet) :
    (s.modPallet l f).movers = s.movers := rfl
@[simp] theorem State.modPallet_freeList (s : State) (l : Label) (f : Pallet → Pallet) :
    (s.modPallet l f).freeList = s.freeList := rfl
@[simp] theorem State.modPallet_queues (s : State) (l : Label) (f : Pallet → Pallet) :
    (s.modPallet l f).queues = s.queues := rfl
@[simp] theorem State.modPallet_lastMove (s : State) (l : Label) (f : Pallet → Pallet) :
    (s.modPallet l f).lastMove = s.lastMove := rfl
@[simp] theorem State.modPallet_urgent (s : State) (l : Label) (f : Pallet → Pallet) :
    (s.modPallet l f).urgent = s.urgent := rfl
@[simp] theorem State.modPallet_normal (s : State) (l : Label) (f : Pallet → Pallet) :
    (s.modPallet l f).normal = s.normal := rfl
@[simp] theorem State.modPallet_bursts (s : State) (l : Label) (f : Pallet → Pallet) :
    (s.modPallet l f).bursts = s.bursts := rfl
@[simp] theorem State.modPallet_conditions (s : State) (l : Label) (f : Pallet → Pallet) :
    (s.modPallet l f).conditions = s.conditions := rfl
@[simp] theorem State.modPallet_keepAll (s : State) (l : Label) (f : Pallet → Pallet) :
    (s.modPallet l f).keepAll = s.keepAll := rfl
@[simp] theorem State.modPallet_channelA (s : State) (l : Label) (f : Pallet → Pallet) :
    (s.modPallet l f).channelA = s.channelA := rfl
@[simp] theorem State.modPallet_channelB (s : State) (l : Label) (f : Pallet → Pallet) :
    (s.modPallet l f).channelB = s.channelB := rfl
@[simp] theorem State.modPallet_limits (s : State) (l : Label) (f : Pallet → Pallet) :
    (s.modPallet l f).limits = s.limits := rfl
@[simp] theorem State.modPallet_verdictAddress (s : State) (l : Label) (f : Pallet → Pallet) :
    (s.modPallet l f).verdictAddress = s.verdictAddress := rfl
@[simp] theorem State.modPallet_frames (s : State) (l : Label) (f : Pallet → Pallet) :
    (s.modPallet l f).frames = s.frames := rfl
@[simp] theorem State.modPallet_turn (s : State) (l : Label) (f : Pallet → Pallet) :
    (s.modPallet l f).turn = s.turn := rfl
@[simp] theorem State.modPallet_restart (s : State) (l : Label) (f : Pallet → Pallet) :
    (s.modPallet l f).restart = s.restart := rfl
@[simp] theorem State.modPallet_pending (s : State) (l : Label) (f : Pallet → Pallet) :
    (s.modPallet l f).pending = s.pending := rfl
@[simp] theorem State.modPallet_answer (s : State) (l : Label) (f : Pallet → Pallet) :
    (s.modPallet l f).answer = s.answer := rfl
@[simp] theorem State.modPallet_freeCount (s : State) (l : Label) (f : Pallet → Pallet) :
    (s.modPallet l f).freeCount = s.freeCount := rfl

/-! ## addPallet -/

@[simp] theorem State.addPallet_floor (s : State) (p : Pallet) :
    (s.addPallet p).floor = s.floor := rfl
@[simp] theorem State.addPallet_yard (s : State) (p : Pallet) :
    (s.addPallet p).yard = s.yard := rfl
@[simp] theorem State.addPallet_hub (s : State) (p : Pallet) :
    (s.addPallet p).hub = s.hub := rfl
@[simp] theorem State.addPallet_unit (s : State) (p : Pallet) :
    (s.addPallet p).unit = s.unit := rfl
@[simp] theorem State.addPallet_repeats (s : State) (p : Pallet) :
    (s.addPallet p).repeats = s.repeats := rfl
@[simp] theorem State.addPallet_pallets (s : State) (p : Pallet) :
    (s.addPallet p).pallets = s.pallets.put p.label.toNat p := rfl
@[simp] theorem State.addPallet_bank0 (s : State) (p : Pallet) :
    (s.addPallet p).bank0 = s.bank0 := rfl
@[simp] theorem State.addPallet_bank1 (s : State) (p : Pallet) :
    (s.addPallet p).bank1 = s.bank1 := rfl
@[simp] theorem State.addPallet_active (s : State) (p : Pallet) :
    (s.addPallet p).active = s.active := rfl
@[simp] theorem State.addPallet_clock (s : State) (p : Pallet) :
    (s.addPallet p).clock = s.clock := rfl
@[simp] theorem State.addPallet_classes (s : State) (p : Pallet) :
    (s.addPallet p).classes = s.classes := rfl
@[simp] theorem State.addPallet_trunks (s : State) (p : Pallet) :
    (s.addPallet p).trunks = s.trunks := rfl
@[simp] theorem State.addPallet_bookingCounter (s : State) (p : Pallet) :
    (s.addPallet p).bookingCounter = s.bookingCounter := rfl
@[simp] theorem State.addPallet_doors (s : State) (p : Pallet) :
    (s.addPallet p).doors = s.doors := rfl
@[simp] theorem State.addPallet_movers (s : State) (p : Pallet) :
    (s.addPallet p).movers = s.movers := rfl
@[simp] theorem State.addPallet_freeList (s : State) (p : Pallet) :
    (s.addPallet p).freeList = s.freeList := rfl
@[simp] theorem State.addPallet_queues (s : State) (p : Pallet) :
    (s.addPallet p).queues = s.queues := rfl
@[simp] theorem State.addPallet_lastMove (s : State) (p : Pallet) :
    (s.addPallet p).lastMove = s.lastMove := rfl
@[simp] theorem State.addPallet_urgent (s : State) (p : Pallet) :
    (s.addPallet p).urgent = s.urgent := rfl
@[simp] theorem State.addPallet_normal (s : State) (p : Pallet) :
    (s.addPallet p).normal = s.normal := rfl
@[simp] theorem State.addPallet_bursts (s : State) (p : Pallet) :
    (s.addPallet p).bursts = s.bursts := rfl
@[simp] theorem State.addPallet_conditions (s : State) (p : Pallet) :
    (s.addPallet p).conditions = s.conditions := rfl
@[simp] theorem State.addPallet_keepAll (s : State) (p : Pallet) :
    (s.addPallet p).keepAll = s.keepAll := rfl
@[simp] theorem State.addPallet_channelA (s : State) (p : Pallet) :
    (s.addPallet p).channelA = s.channelA := rfl
@[simp] theorem State.addPallet_channelB (s : State) (p : Pallet) :
    (s.addPallet p).channelB = s.channelB := rfl
@[simp] theorem State.addPallet_limits (s : State) (p : Pallet) :
    (s.addPallet p).limits = s.limits := rfl
@[simp] theorem State.addPallet_verdictAddress (s : State) (p : Pallet) :
    (s.addPallet p).verdictAddress = s.verdictAddress := rfl
@[simp] theorem State.addPallet_frames (s : State) (p : Pallet) :
    (s.addPallet p).frames = s.frames := rfl
@[simp] theorem State.addPallet_turn (s : State) (p : Pallet) :
    (s.addPallet p).turn = s.turn := rfl
@[simp] theorem State.addPallet_restart (s : State) (p : Pallet) :
    (s.addPallet p).restart = s.restart := rfl
@[simp] theorem State.addPallet_pending (s : State) (p : Pallet) :
    (s.addPallet p).pending = s.pending := rfl
@[simp] theorem State.addPallet_answer (s : State) (p : Pallet) :
    (s.addPallet p).answer = s.answer := rfl
@[simp] theorem State.addPallet_freeCount (s : State) (p : Pallet) :
    (s.addPallet p).freeCount = s.freeCount := rfl

/-! ## dropPallet -/

@[simp] theorem State.dropPallet_floor (s : State) (l : Label) :
    (s.dropPallet l).floor = s.floor := rfl
@[simp] theorem State.dropPallet_yard (s : State) (l : Label) :
    (s.dropPallet l).yard = s.yard := rfl
@[simp] theorem State.dropPallet_hub (s : State) (l : Label) :
    (s.dropPallet l).hub = s.hub := rfl
@[simp] theorem State.dropPallet_unit (s : State) (l : Label) :
    (s.dropPallet l).unit = s.unit := rfl
@[simp] theorem State.dropPallet_repeats (s : State) (l : Label) :
    (s.dropPallet l).repeats = s.repeats := rfl
@[simp] theorem State.dropPallet_pallets (s : State) (l : Label) :
    (s.dropPallet l).pallets = s.pallets.erase l.toNat := rfl
@[simp] theorem State.dropPallet_bank0 (s : State) (l : Label) :
    (s.dropPallet l).bank0 = s.bank0 := rfl
@[simp] theorem State.dropPallet_bank1 (s : State) (l : Label) :
    (s.dropPallet l).bank1 = s.bank1 := rfl
@[simp] theorem State.dropPallet_active (s : State) (l : Label) :
    (s.dropPallet l).active = s.active := rfl
@[simp] theorem State.dropPallet_clock (s : State) (l : Label) :
    (s.dropPallet l).clock = s.clock := rfl
@[simp] theorem State.dropPallet_classes (s : State) (l : Label) :
    (s.dropPallet l).classes = s.classes := rfl
@[simp] theorem State.dropPallet_trunks (s : State) (l : Label) :
    (s.dropPallet l).trunks = s.trunks := rfl
@[simp] theorem State.dropPallet_bookingCounter (s : State) (l : Label) :
    (s.dropPallet l).bookingCounter = s.bookingCounter := rfl
@[simp] theorem State.dropPallet_doors (s : State) (l : Label) :
    (s.dropPallet l).doors = s.doors := rfl
@[simp] theorem State.dropPallet_movers (s : State) (l : Label) :
    (s.dropPallet l).movers = s.movers := rfl
@[simp] theorem State.dropPallet_freeList (s : State) (l : Label) :
    (s.dropPallet l).freeList = s.freeList := rfl
@[simp] theorem State.dropPallet_queues (s : State) (l : Label) :
    (s.dropPallet l).queues = s.queues := rfl
@[simp] theorem State.dropPallet_lastMove (s : State) (l : Label) :
    (s.dropPallet l).lastMove = s.lastMove := rfl
@[simp] theorem State.dropPallet_urgent (s : State) (l : Label) :
    (s.dropPallet l).urgent = s.urgent := rfl
@[simp] theorem State.dropPallet_normal (s : State) (l : Label) :
    (s.dropPallet l).normal = s.normal := rfl
@[simp] theorem State.dropPallet_bursts (s : State) (l : Label) :
    (s.dropPallet l).bursts = s.bursts := rfl
@[simp] theorem State.dropPallet_conditions (s : State) (l : Label) :
    (s.dropPallet l).conditions = s.conditions := rfl
@[simp] theorem State.dropPallet_keepAll (s : State) (l : Label) :
    (s.dropPallet l).keepAll = s.keepAll := rfl
@[simp] theorem State.dropPallet_channelA (s : State) (l : Label) :
    (s.dropPallet l).channelA = s.channelA := rfl
@[simp] theorem State.dropPallet_channelB (s : State) (l : Label) :
    (s.dropPallet l).channelB = s.channelB := rfl
@[simp] theorem State.dropPallet_limits (s : State) (l : Label) :
    (s.dropPallet l).limits = s.limits := rfl
@[simp] theorem State.dropPallet_verdictAddress (s : State) (l : Label) :
    (s.dropPallet l).verdictAddress = s.verdictAddress := rfl
@[simp] theorem State.dropPallet_frames (s : State) (l : Label) :
    (s.dropPallet l).frames = s.frames := rfl
@[simp] theorem State.dropPallet_turn (s : State) (l : Label) :
    (s.dropPallet l).turn = s.turn := rfl
@[simp] theorem State.dropPallet_restart (s : State) (l : Label) :
    (s.dropPallet l).restart = s.restart := rfl
@[simp] theorem State.dropPallet_pending (s : State) (l : Label) :
    (s.dropPallet l).pending = s.pending := rfl
@[simp] theorem State.dropPallet_answer (s : State) (l : Label) :
    (s.dropPallet l).answer = s.answer := rfl
@[simp] theorem State.dropPallet_freeCount (s : State) (l : Label) :
    (s.dropPallet l).freeCount = s.freeCount := rfl

/-! ## modTrunk -/

@[simp] theorem State.modTrunk_floor (s : State) (t : Nat) (f : Trunk → Trunk) :
    (s.modTrunk t f).floor = s.floor := rfl
@[simp] theorem State.modTrunk_yard (s : State) (t : Nat) (f : Trunk → Trunk) :
    (s.modTrunk t f).yard = s.yard := rfl
@[simp] theorem State.modTrunk_hub (s : State) (t : Nat) (f : Trunk → Trunk) :
    (s.modTrunk t f).hub = s.hub := rfl
@[simp] theorem State.modTrunk_unit (s : State) (t : Nat) (f : Trunk → Trunk) :
    (s.modTrunk t f).unit = s.unit := rfl
@[simp] theorem State.modTrunk_repeats (s : State) (t : Nat) (f : Trunk → Trunk) :
    (s.modTrunk t f).repeats = s.repeats := rfl
@[simp] theorem State.modTrunk_pallets (s : State) (t : Nat) (f : Trunk → Trunk) :
    (s.modTrunk t f).pallets = s.pallets := rfl
@[simp] theorem State.modTrunk_bank0 (s : State) (t : Nat) (f : Trunk → Trunk) :
    (s.modTrunk t f).bank0 = s.bank0 := rfl
@[simp] theorem State.modTrunk_bank1 (s : State) (t : Nat) (f : Trunk → Trunk) :
    (s.modTrunk t f).bank1 = s.bank1 := rfl
@[simp] theorem State.modTrunk_active (s : State) (t : Nat) (f : Trunk → Trunk) :
    (s.modTrunk t f).active = s.active := rfl
@[simp] theorem State.modTrunk_clock (s : State) (t : Nat) (f : Trunk → Trunk) :
    (s.modTrunk t f).clock = s.clock := rfl
@[simp] theorem State.modTrunk_classes (s : State) (t : Nat) (f : Trunk → Trunk) :
    (s.modTrunk t f).classes = s.classes := rfl
@[simp] theorem State.modTrunk_trunks (s : State) (t : Nat) (f : Trunk → Trunk) :
    (s.modTrunk t f).trunks = s.trunks.adjust t f := rfl
@[simp] theorem State.modTrunk_bookingCounter (s : State) (t : Nat) (f : Trunk → Trunk) :
    (s.modTrunk t f).bookingCounter = s.bookingCounter := rfl
@[simp] theorem State.modTrunk_doors (s : State) (t : Nat) (f : Trunk → Trunk) :
    (s.modTrunk t f).doors = s.doors := rfl
@[simp] theorem State.modTrunk_movers (s : State) (t : Nat) (f : Trunk → Trunk) :
    (s.modTrunk t f).movers = s.movers := rfl
@[simp] theorem State.modTrunk_freeList (s : State) (t : Nat) (f : Trunk → Trunk) :
    (s.modTrunk t f).freeList = s.freeList := rfl
@[simp] theorem State.modTrunk_queues (s : State) (t : Nat) (f : Trunk → Trunk) :
    (s.modTrunk t f).queues = s.queues := rfl
@[simp] theorem State.modTrunk_lastMove (s : State) (t : Nat) (f : Trunk → Trunk) :
    (s.modTrunk t f).lastMove = s.lastMove := rfl
@[simp] theorem State.modTrunk_urgent (s : State) (t : Nat) (f : Trunk → Trunk) :
    (s.modTrunk t f).urgent = s.urgent := rfl
@[simp] theorem State.modTrunk_normal (s : State) (t : Nat) (f : Trunk → Trunk) :
    (s.modTrunk t f).normal = s.normal := rfl
@[simp] theorem State.modTrunk_bursts (s : State) (t : Nat) (f : Trunk → Trunk) :
    (s.modTrunk t f).bursts = s.bursts := rfl
@[simp] theorem State.modTrunk_conditions (s : State) (t : Nat) (f : Trunk → Trunk) :
    (s.modTrunk t f).conditions = s.conditions := rfl
@[simp] theorem State.modTrunk_keepAll (s : State) (t : Nat) (f : Trunk → Trunk) :
    (s.modTrunk t f).keepAll = s.keepAll := rfl
@[simp] theorem State.modTrunk_channelA (s : State) (t : Nat) (f : Trunk → Trunk) :
    (s.modTrunk t f).channelA = s.channelA := rfl
@[simp] theorem State.modTrunk_channelB (s : State) (t : Nat) (f : Trunk → Trunk) :
    (s.modTrunk t f).channelB = s.channelB := rfl
@[simp] theorem State.modTrunk_limits (s : State) (t : Nat) (f : Trunk → Trunk) :
    (s.modTrunk t f).limits = s.limits := rfl
@[simp] theorem State.modTrunk_verdictAddress (s : State) (t : Nat) (f : Trunk → Trunk) :
    (s.modTrunk t f).verdictAddress = s.verdictAddress := rfl
@[simp] theorem State.modTrunk_frames (s : State) (t : Nat) (f : Trunk → Trunk) :
    (s.modTrunk t f).frames = s.frames := rfl
@[simp] theorem State.modTrunk_turn (s : State) (t : Nat) (f : Trunk → Trunk) :
    (s.modTrunk t f).turn = s.turn := rfl
@[simp] theorem State.modTrunk_restart (s : State) (t : Nat) (f : Trunk → Trunk) :
    (s.modTrunk t f).restart = s.restart := rfl
@[simp] theorem State.modTrunk_pending (s : State) (t : Nat) (f : Trunk → Trunk) :
    (s.modTrunk t f).pending = s.pending := rfl
@[simp] theorem State.modTrunk_answer (s : State) (t : Nat) (f : Trunk → Trunk) :
    (s.modTrunk t f).answer = s.answer := rfl
@[simp] theorem State.modTrunk_freeCount (s : State) (t : Nat) (f : Trunk → Trunk) :
    (s.modTrunk t f).freeCount = s.freeCount := rfl

/-! ## addTrunk -/

@[simp] theorem State.addTrunk_floor (s : State) (t : Nat) (r : Trunk) :
    (s.addTrunk t r).floor = s.floor := rfl
@[simp] theorem State.addTrunk_yard (s : State) (t : Nat) (r : Trunk) :
    (s.addTrunk t r).yard = s.yard := rfl
@[simp] theorem State.addTrunk_hub (s : State) (t : Nat) (r : Trunk) :
    (s.addTrunk t r).hub = s.hub := rfl
@[simp] theorem State.addTrunk_unit (s : State) (t : Nat) (r : Trunk) :
    (s.addTrunk t r).unit = s.unit := rfl
@[simp] theorem State.addTrunk_repeats (s : State) (t : Nat) (r : Trunk) :
    (s.addTrunk t r).repeats = s.repeats := rfl
@[simp] theorem State.addTrunk_pallets (s : State) (t : Nat) (r : Trunk) :
    (s.addTrunk t r).pallets = s.pallets := rfl
@[simp] theorem State.addTrunk_bank0 (s : State) (t : Nat) (r : Trunk) :
    (s.addTrunk t r).bank0 = s.bank0 := rfl
@[simp] theorem State.addTrunk_bank1 (s : State) (t : Nat) (r : Trunk) :
    (s.addTrunk t r).bank1 = s.bank1 := rfl
@[simp] theorem State.addTrunk_active (s : State) (t : Nat) (r : Trunk) :
    (s.addTrunk t r).active = s.active := rfl
@[simp] theorem State.addTrunk_clock (s : State) (t : Nat) (r : Trunk) :
    (s.addTrunk t r).clock = s.clock := rfl
@[simp] theorem State.addTrunk_classes (s : State) (t : Nat) (r : Trunk) :
    (s.addTrunk t r).classes = s.classes := rfl
@[simp] theorem State.addTrunk_trunks (s : State) (t : Nat) (r : Trunk) :
    (s.addTrunk t r).trunks = s.trunks.put t r := rfl
@[simp] theorem State.addTrunk_bookingCounter (s : State) (t : Nat) (r : Trunk) :
    (s.addTrunk t r).bookingCounter = s.bookingCounter := rfl
@[simp] theorem State.addTrunk_doors (s : State) (t : Nat) (r : Trunk) :
    (s.addTrunk t r).doors = s.doors := rfl
@[simp] theorem State.addTrunk_movers (s : State) (t : Nat) (r : Trunk) :
    (s.addTrunk t r).movers = s.movers := rfl
@[simp] theorem State.addTrunk_freeList (s : State) (t : Nat) (r : Trunk) :
    (s.addTrunk t r).freeList = s.freeList := rfl
@[simp] theorem State.addTrunk_queues (s : State) (t : Nat) (r : Trunk) :
    (s.addTrunk t r).queues = s.queues := rfl
@[simp] theorem State.addTrunk_lastMove (s : State) (t : Nat) (r : Trunk) :
    (s.addTrunk t r).lastMove = s.lastMove := rfl
@[simp] theorem State.addTrunk_urgent (s : State) (t : Nat) (r : Trunk) :
    (s.addTrunk t r).urgent = s.urgent := rfl
@[simp] theorem State.addTrunk_normal (s : State) (t : Nat) (r : Trunk) :
    (s.addTrunk t r).normal = s.normal := rfl
@[simp] theorem State.addTrunk_bursts (s : State) (t : Nat) (r : Trunk) :
    (s.addTrunk t r).bursts = s.bursts := rfl
@[simp] theorem State.addTrunk_conditions (s : State) (t : Nat) (r : Trunk) :
    (s.addTrunk t r).conditions = s.conditions := rfl
@[simp] theorem State.addTrunk_keepAll (s : State) (t : Nat) (r : Trunk) :
    (s.addTrunk t r).keepAll = s.keepAll := rfl
@[simp] theorem State.addTrunk_channelA (s : State) (t : Nat) (r : Trunk) :
    (s.addTrunk t r).channelA = s.channelA := rfl
@[simp] theorem State.addTrunk_channelB (s : State) (t : Nat) (r : Trunk) :
    (s.addTrunk t r).channelB = s.channelB := rfl
@[simp] theorem State.addTrunk_limits (s : State) (t : Nat) (r : Trunk) :
    (s.addTrunk t r).limits = s.limits := rfl
@[simp] theorem State.addTrunk_verdictAddress (s : State) (t : Nat) (r : Trunk) :
    (s.addTrunk t r).verdictAddress = s.verdictAddress := rfl
@[simp] theorem State.addTrunk_frames (s : State) (t : Nat) (r : Trunk) :
    (s.addTrunk t r).frames = s.frames := rfl
@[simp] theorem State.addTrunk_turn (s : State) (t : Nat) (r : Trunk) :
    (s.addTrunk t r).turn = s.turn := rfl
@[simp] theorem State.addTrunk_restart (s : State) (t : Nat) (r : Trunk) :
    (s.addTrunk t r).restart = s.restart := rfl
@[simp] theorem State.addTrunk_pending (s : State) (t : Nat) (r : Trunk) :
    (s.addTrunk t r).pending = s.pending := rfl
@[simp] theorem State.addTrunk_answer (s : State) (t : Nat) (r : Trunk) :
    (s.addTrunk t r).answer = s.answer := rfl
@[simp] theorem State.addTrunk_freeCount (s : State) (t : Nat) (r : Trunk) :
    (s.addTrunk t r).freeCount = s.freeCount := rfl

/-! ## dropTrunk -/

@[simp] theorem State.dropTrunk_floor (s : State) (t : Nat) :
    (s.dropTrunk t).floor = s.floor := rfl
@[simp] theorem State.dropTrunk_yard (s : State) (t : Nat) :
    (s.dropTrunk t).yard = s.yard := rfl
@[simp] theorem State.dropTrunk_hub (s : State) (t : Nat) :
    (s.dropTrunk t).hub = s.hub := rfl
@[simp] theorem State.dropTrunk_unit (s : State) (t : Nat) :
    (s.dropTrunk t).unit = s.unit := rfl
@[simp] theorem State.dropTrunk_repeats (s : State) (t : Nat) :
    (s.dropTrunk t).repeats = s.repeats := rfl
@[simp] theorem State.dropTrunk_pallets (s : State) (t : Nat) :
    (s.dropTrunk t).pallets = s.pallets := rfl
@[simp] theorem State.dropTrunk_bank0 (s : State) (t : Nat) :
    (s.dropTrunk t).bank0 = s.bank0 := rfl
@[simp] theorem State.dropTrunk_bank1 (s : State) (t : Nat) :
    (s.dropTrunk t).bank1 = s.bank1 := rfl
@[simp] theorem State.dropTrunk_active (s : State) (t : Nat) :
    (s.dropTrunk t).active = s.active := rfl
@[simp] theorem State.dropTrunk_clock (s : State) (t : Nat) :
    (s.dropTrunk t).clock = s.clock := rfl
@[simp] theorem State.dropTrunk_classes (s : State) (t : Nat) :
    (s.dropTrunk t).classes = s.classes := rfl
@[simp] theorem State.dropTrunk_trunks (s : State) (t : Nat) :
    (s.dropTrunk t).trunks = s.trunks.erase t := rfl
@[simp] theorem State.dropTrunk_bookingCounter (s : State) (t : Nat) :
    (s.dropTrunk t).bookingCounter = s.bookingCounter := rfl
@[simp] theorem State.dropTrunk_doors (s : State) (t : Nat) :
    (s.dropTrunk t).doors = s.doors := rfl
@[simp] theorem State.dropTrunk_movers (s : State) (t : Nat) :
    (s.dropTrunk t).movers = s.movers := rfl
@[simp] theorem State.dropTrunk_freeList (s : State) (t : Nat) :
    (s.dropTrunk t).freeList = s.freeList := rfl
@[simp] theorem State.dropTrunk_queues (s : State) (t : Nat) :
    (s.dropTrunk t).queues = s.queues := rfl
@[simp] theorem State.dropTrunk_lastMove (s : State) (t : Nat) :
    (s.dropTrunk t).lastMove = s.lastMove := rfl
@[simp] theorem State.dropTrunk_urgent (s : State) (t : Nat) :
    (s.dropTrunk t).urgent = s.urgent := rfl
@[simp] theorem State.dropTrunk_normal (s : State) (t : Nat) :
    (s.dropTrunk t).normal = s.normal := rfl
@[simp] theorem State.dropTrunk_bursts (s : State) (t : Nat) :
    (s.dropTrunk t).bursts = s.bursts := rfl
@[simp] theorem State.dropTrunk_conditions (s : State) (t : Nat) :
    (s.dropTrunk t).conditions = s.conditions := rfl
@[simp] theorem State.dropTrunk_keepAll (s : State) (t : Nat) :
    (s.dropTrunk t).keepAll = s.keepAll := rfl
@[simp] theorem State.dropTrunk_channelA (s : State) (t : Nat) :
    (s.dropTrunk t).channelA = s.channelA := rfl
@[simp] theorem State.dropTrunk_channelB (s : State) (t : Nat) :
    (s.dropTrunk t).channelB = s.channelB := rfl
@[simp] theorem State.dropTrunk_limits (s : State) (t : Nat) :
    (s.dropTrunk t).limits = s.limits := rfl
@[simp] theorem State.dropTrunk_verdictAddress (s : State) (t : Nat) :
    (s.dropTrunk t).verdictAddress = s.verdictAddress := rfl
@[simp] theorem State.dropTrunk_frames (s : State) (t : Nat) :
    (s.dropTrunk t).frames = s.frames := rfl
@[simp] theorem State.dropTrunk_turn (s : State) (t : Nat) :
    (s.dropTrunk t).turn = s.turn := rfl
@[simp] theorem State.dropTrunk_restart (s : State) (t : Nat) :
    (s.dropTrunk t).restart = s.restart := rfl
@[simp] theorem State.dropTrunk_pending (s : State) (t : Nat) :
    (s.dropTrunk t).pending = s.pending := rfl
@[simp] theorem State.dropTrunk_answer (s : State) (t : Nat) :
    (s.dropTrunk t).answer = s.answer := rfl
@[simp] theorem State.dropTrunk_freeCount (s : State) (t : Nat) :
    (s.dropTrunk t).freeCount = s.freeCount := rfl

/-! ## modDoor -/

@[simp] theorem State.modDoor_floor (s : State) (d : Nat) (f : Door → Door) :
    (s.modDoor d f).floor = s.floor := rfl
@[simp] theorem State.modDoor_yard (s : State) (d : Nat) (f : Door → Door) :
    (s.modDoor d f).yard = s.yard := rfl
@[simp] theorem State.modDoor_hub (s : State) (d : Nat) (f : Door → Door) :
    (s.modDoor d f).hub = s.hub := rfl
@[simp] theorem State.modDoor_unit (s : State) (d : Nat) (f : Door → Door) :
    (s.modDoor d f).unit = s.unit := rfl
@[simp] theorem State.modDoor_repeats (s : State) (d : Nat) (f : Door → Door) :
    (s.modDoor d f).repeats = s.repeats := rfl
@[simp] theorem State.modDoor_pallets (s : State) (d : Nat) (f : Door → Door) :
    (s.modDoor d f).pallets = s.pallets := rfl
@[simp] theorem State.modDoor_bank0 (s : State) (d : Nat) (f : Door → Door) :
    (s.modDoor d f).bank0 = s.bank0 := rfl
@[simp] theorem State.modDoor_bank1 (s : State) (d : Nat) (f : Door → Door) :
    (s.modDoor d f).bank1 = s.bank1 := rfl
@[simp] theorem State.modDoor_active (s : State) (d : Nat) (f : Door → Door) :
    (s.modDoor d f).active = s.active := rfl
@[simp] theorem State.modDoor_clock (s : State) (d : Nat) (f : Door → Door) :
    (s.modDoor d f).clock = s.clock := rfl
@[simp] theorem State.modDoor_classes (s : State) (d : Nat) (f : Door → Door) :
    (s.modDoor d f).classes = s.classes := rfl
@[simp] theorem State.modDoor_trunks (s : State) (d : Nat) (f : Door → Door) :
    (s.modDoor d f).trunks = s.trunks := rfl
@[simp] theorem State.modDoor_bookingCounter (s : State) (d : Nat) (f : Door → Door) :
    (s.modDoor d f).bookingCounter = s.bookingCounter := rfl
@[simp] theorem State.modDoor_doors (s : State) (d : Nat) (f : Door → Door) :
    (s.modDoor d f).doors = setNth s.doors d (f (s.door d)) := rfl
@[simp] theorem State.modDoor_movers (s : State) (d : Nat) (f : Door → Door) :
    (s.modDoor d f).movers = s.movers := rfl
@[simp] theorem State.modDoor_freeList (s : State) (d : Nat) (f : Door → Door) :
    (s.modDoor d f).freeList = s.freeList := rfl
@[simp] theorem State.modDoor_queues (s : State) (d : Nat) (f : Door → Door) :
    (s.modDoor d f).queues = s.queues := rfl
@[simp] theorem State.modDoor_lastMove (s : State) (d : Nat) (f : Door → Door) :
    (s.modDoor d f).lastMove = s.lastMove := rfl
@[simp] theorem State.modDoor_urgent (s : State) (d : Nat) (f : Door → Door) :
    (s.modDoor d f).urgent = s.urgent := rfl
@[simp] theorem State.modDoor_normal (s : State) (d : Nat) (f : Door → Door) :
    (s.modDoor d f).normal = s.normal := rfl
@[simp] theorem State.modDoor_bursts (s : State) (d : Nat) (f : Door → Door) :
    (s.modDoor d f).bursts = s.bursts := rfl
@[simp] theorem State.modDoor_conditions (s : State) (d : Nat) (f : Door → Door) :
    (s.modDoor d f).conditions = s.conditions := rfl
@[simp] theorem State.modDoor_keepAll (s : State) (d : Nat) (f : Door → Door) :
    (s.modDoor d f).keepAll = s.keepAll := rfl
@[simp] theorem State.modDoor_channelA (s : State) (d : Nat) (f : Door → Door) :
    (s.modDoor d f).channelA = s.channelA := rfl
@[simp] theorem State.modDoor_channelB (s : State) (d : Nat) (f : Door → Door) :
    (s.modDoor d f).channelB = s.channelB := rfl
@[simp] theorem State.modDoor_limits (s : State) (d : Nat) (f : Door → Door) :
    (s.modDoor d f).limits = s.limits := rfl
@[simp] theorem State.modDoor_verdictAddress (s : State) (d : Nat) (f : Door → Door) :
    (s.modDoor d f).verdictAddress = s.verdictAddress := rfl
@[simp] theorem State.modDoor_frames (s : State) (d : Nat) (f : Door → Door) :
    (s.modDoor d f).frames = s.frames := rfl
@[simp] theorem State.modDoor_turn (s : State) (d : Nat) (f : Door → Door) :
    (s.modDoor d f).turn = s.turn := rfl
@[simp] theorem State.modDoor_restart (s : State) (d : Nat) (f : Door → Door) :
    (s.modDoor d f).restart = s.restart := rfl
@[simp] theorem State.modDoor_pending (s : State) (d : Nat) (f : Door → Door) :
    (s.modDoor d f).pending = s.pending := rfl
@[simp] theorem State.modDoor_answer (s : State) (d : Nat) (f : Door → Door) :
    (s.modDoor d f).answer = s.answer := rfl
@[simp] theorem State.modDoor_freeCount (s : State) (d : Nat) (f : Door → Door) :
    (s.modDoor d f).freeCount = s.freeCount := rfl

/-! ## modMover -/

@[simp] theorem State.modMover_floor (s : State) (m : Nat) (f : Mover → Mover) :
    (s.modMover m f).floor = s.floor := rfl
@[simp] theorem State.modMover_yard (s : State) (m : Nat) (f : Mover → Mover) :
    (s.modMover m f).yard = s.yard := rfl
@[simp] theorem State.modMover_hub (s : State) (m : Nat) (f : Mover → Mover) :
    (s.modMover m f).hub = s.hub := rfl
@[simp] theorem State.modMover_unit (s : State) (m : Nat) (f : Mover → Mover) :
    (s.modMover m f).unit = s.unit := rfl
@[simp] theorem State.modMover_repeats (s : State) (m : Nat) (f : Mover → Mover) :
    (s.modMover m f).repeats = s.repeats := rfl
@[simp] theorem State.modMover_pallets (s : State) (m : Nat) (f : Mover → Mover) :
    (s.modMover m f).pallets = s.pallets := rfl
@[simp] theorem State.modMover_bank0 (s : State) (m : Nat) (f : Mover → Mover) :
    (s.modMover m f).bank0 = s.bank0 := rfl
@[simp] theorem State.modMover_bank1 (s : State) (m : Nat) (f : Mover → Mover) :
    (s.modMover m f).bank1 = s.bank1 := rfl
@[simp] theorem State.modMover_active (s : State) (m : Nat) (f : Mover → Mover) :
    (s.modMover m f).active = s.active := rfl
@[simp] theorem State.modMover_clock (s : State) (m : Nat) (f : Mover → Mover) :
    (s.modMover m f).clock = s.clock := rfl
@[simp] theorem State.modMover_classes (s : State) (m : Nat) (f : Mover → Mover) :
    (s.modMover m f).classes = s.classes := rfl
@[simp] theorem State.modMover_trunks (s : State) (m : Nat) (f : Mover → Mover) :
    (s.modMover m f).trunks = s.trunks := rfl
@[simp] theorem State.modMover_bookingCounter (s : State) (m : Nat) (f : Mover → Mover) :
    (s.modMover m f).bookingCounter = s.bookingCounter := rfl
@[simp] theorem State.modMover_doors (s : State) (m : Nat) (f : Mover → Mover) :
    (s.modMover m f).doors = s.doors := rfl
@[simp] theorem State.modMover_movers (s : State) (m : Nat) (f : Mover → Mover) :
    (s.modMover m f).movers = setNth s.movers m (f (s.mover m)) := rfl
@[simp] theorem State.modMover_freeList (s : State) (m : Nat) (f : Mover → Mover) :
    (s.modMover m f).freeList = s.freeList := rfl
@[simp] theorem State.modMover_queues (s : State) (m : Nat) (f : Mover → Mover) :
    (s.modMover m f).queues = s.queues := rfl
@[simp] theorem State.modMover_lastMove (s : State) (m : Nat) (f : Mover → Mover) :
    (s.modMover m f).lastMove = s.lastMove := rfl
@[simp] theorem State.modMover_urgent (s : State) (m : Nat) (f : Mover → Mover) :
    (s.modMover m f).urgent = s.urgent := rfl
@[simp] theorem State.modMover_normal (s : State) (m : Nat) (f : Mover → Mover) :
    (s.modMover m f).normal = s.normal := rfl
@[simp] theorem State.modMover_bursts (s : State) (m : Nat) (f : Mover → Mover) :
    (s.modMover m f).bursts = s.bursts := rfl
@[simp] theorem State.modMover_conditions (s : State) (m : Nat) (f : Mover → Mover) :
    (s.modMover m f).conditions = s.conditions := rfl
@[simp] theorem State.modMover_keepAll (s : State) (m : Nat) (f : Mover → Mover) :
    (s.modMover m f).keepAll = s.keepAll := rfl
@[simp] theorem State.modMover_channelA (s : State) (m : Nat) (f : Mover → Mover) :
    (s.modMover m f).channelA = s.channelA := rfl
@[simp] theorem State.modMover_channelB (s : State) (m : Nat) (f : Mover → Mover) :
    (s.modMover m f).channelB = s.channelB := rfl
@[simp] theorem State.modMover_limits (s : State) (m : Nat) (f : Mover → Mover) :
    (s.modMover m f).limits = s.limits := rfl
@[simp] theorem State.modMover_verdictAddress (s : State) (m : Nat) (f : Mover → Mover) :
    (s.modMover m f).verdictAddress = s.verdictAddress := rfl
@[simp] theorem State.modMover_frames (s : State) (m : Nat) (f : Mover → Mover) :
    (s.modMover m f).frames = s.frames := rfl
@[simp] theorem State.modMover_turn (s : State) (m : Nat) (f : Mover → Mover) :
    (s.modMover m f).turn = s.turn := rfl
@[simp] theorem State.modMover_restart (s : State) (m : Nat) (f : Mover → Mover) :
    (s.modMover m f).restart = s.restart := rfl
@[simp] theorem State.modMover_pending (s : State) (m : Nat) (f : Mover → Mover) :
    (s.modMover m f).pending = s.pending := rfl
@[simp] theorem State.modMover_answer (s : State) (m : Nat) (f : Mover → Mover) :
    (s.modMover m f).answer = s.answer := rfl
@[simp] theorem State.modMover_freeCount (s : State) (m : Nat) (f : Mover → Mover) :
    (s.modMover m f).freeCount = s.freeCount := rfl

/-! ## setQueue -/

@[simp] theorem State.setQueue_floor (s : State) (q : Nat) (ls : List Label) :
    (s.setQueue q ls).floor = s.floor := rfl
@[simp] theorem State.setQueue_yard (s : State) (q : Nat) (ls : List Label) :
    (s.setQueue q ls).yard = s.yard := rfl
@[simp] theorem State.setQueue_hub (s : State) (q : Nat) (ls : List Label) :
    (s.setQueue q ls).hub = s.hub := rfl
@[simp] theorem State.setQueue_unit (s : State) (q : Nat) (ls : List Label) :
    (s.setQueue q ls).unit = s.unit := rfl
@[simp] theorem State.setQueue_repeats (s : State) (q : Nat) (ls : List Label) :
    (s.setQueue q ls).repeats = s.repeats := rfl
@[simp] theorem State.setQueue_pallets (s : State) (q : Nat) (ls : List Label) :
    (s.setQueue q ls).pallets = s.pallets := rfl
@[simp] theorem State.setQueue_bank0 (s : State) (q : Nat) (ls : List Label) :
    (s.setQueue q ls).bank0 = s.bank0 := rfl
@[simp] theorem State.setQueue_bank1 (s : State) (q : Nat) (ls : List Label) :
    (s.setQueue q ls).bank1 = s.bank1 := rfl
@[simp] theorem State.setQueue_active (s : State) (q : Nat) (ls : List Label) :
    (s.setQueue q ls).active = s.active := rfl
@[simp] theorem State.setQueue_clock (s : State) (q : Nat) (ls : List Label) :
    (s.setQueue q ls).clock = s.clock := rfl
@[simp] theorem State.setQueue_classes (s : State) (q : Nat) (ls : List Label) :
    (s.setQueue q ls).classes = s.classes := rfl
@[simp] theorem State.setQueue_trunks (s : State) (q : Nat) (ls : List Label) :
    (s.setQueue q ls).trunks = s.trunks := rfl
@[simp] theorem State.setQueue_bookingCounter (s : State) (q : Nat) (ls : List Label) :
    (s.setQueue q ls).bookingCounter = s.bookingCounter := rfl
@[simp] theorem State.setQueue_doors (s : State) (q : Nat) (ls : List Label) :
    (s.setQueue q ls).doors = s.doors := rfl
@[simp] theorem State.setQueue_movers (s : State) (q : Nat) (ls : List Label) :
    (s.setQueue q ls).movers = s.movers := rfl
@[simp] theorem State.setQueue_freeList (s : State) (q : Nat) (ls : List Label) :
    (s.setQueue q ls).freeList = s.freeList := rfl
@[simp] theorem State.setQueue_queues (s : State) (q : Nat) (ls : List Label) :
    (s.setQueue q ls).queues = s.queues.setIfInBounds q ls := rfl
@[simp] theorem State.setQueue_lastMove (s : State) (q : Nat) (ls : List Label) :
    (s.setQueue q ls).lastMove = s.lastMove := rfl
@[simp] theorem State.setQueue_urgent (s : State) (q : Nat) (ls : List Label) :
    (s.setQueue q ls).urgent = s.urgent := rfl
@[simp] theorem State.setQueue_normal (s : State) (q : Nat) (ls : List Label) :
    (s.setQueue q ls).normal = s.normal := rfl
@[simp] theorem State.setQueue_bursts (s : State) (q : Nat) (ls : List Label) :
    (s.setQueue q ls).bursts = s.bursts := rfl
@[simp] theorem State.setQueue_conditions (s : State) (q : Nat) (ls : List Label) :
    (s.setQueue q ls).conditions = s.conditions := rfl
@[simp] theorem State.setQueue_keepAll (s : State) (q : Nat) (ls : List Label) :
    (s.setQueue q ls).keepAll = s.keepAll := rfl
@[simp] theorem State.setQueue_channelA (s : State) (q : Nat) (ls : List Label) :
    (s.setQueue q ls).channelA = s.channelA := rfl
@[simp] theorem State.setQueue_channelB (s : State) (q : Nat) (ls : List Label) :
    (s.setQueue q ls).channelB = s.channelB := rfl
@[simp] theorem State.setQueue_limits (s : State) (q : Nat) (ls : List Label) :
    (s.setQueue q ls).limits = s.limits := rfl
@[simp] theorem State.setQueue_verdictAddress (s : State) (q : Nat) (ls : List Label) :
    (s.setQueue q ls).verdictAddress = s.verdictAddress := rfl
@[simp] theorem State.setQueue_frames (s : State) (q : Nat) (ls : List Label) :
    (s.setQueue q ls).frames = s.frames := rfl
@[simp] theorem State.setQueue_turn (s : State) (q : Nat) (ls : List Label) :
    (s.setQueue q ls).turn = s.turn := rfl
@[simp] theorem State.setQueue_restart (s : State) (q : Nat) (ls : List Label) :
    (s.setQueue q ls).restart = s.restart := rfl
@[simp] theorem State.setQueue_pending (s : State) (q : Nat) (ls : List Label) :
    (s.setQueue q ls).pending = s.pending := rfl
@[simp] theorem State.setQueue_answer (s : State) (q : Nat) (ls : List Label) :
    (s.setQueue q ls).answer = s.answer := rfl
@[simp] theorem State.setQueue_freeCount (s : State) (q : Nat) (ls : List Label) :
    (s.setQueue q ls).freeCount = s.freeCount := rfl

/-! ## modCondition -/

@[simp] theorem State.modCondition_floor (s : State) (c : CondName) (f : Condition → Condition) :
    (s.modCondition c f).floor = s.floor := rfl
@[simp] theorem State.modCondition_yard (s : State) (c : CondName) (f : Condition → Condition) :
    (s.modCondition c f).yard = s.yard := rfl
@[simp] theorem State.modCondition_hub (s : State) (c : CondName) (f : Condition → Condition) :
    (s.modCondition c f).hub = s.hub := rfl
@[simp] theorem State.modCondition_unit (s : State) (c : CondName) (f : Condition → Condition) :
    (s.modCondition c f).unit = s.unit := rfl
@[simp] theorem State.modCondition_repeats (s : State) (c : CondName) (f : Condition → Condition) :
    (s.modCondition c f).repeats = s.repeats := rfl
@[simp] theorem State.modCondition_pallets (s : State) (c : CondName) (f : Condition → Condition) :
    (s.modCondition c f).pallets = s.pallets := rfl
@[simp] theorem State.modCondition_bank0 (s : State) (c : CondName) (f : Condition → Condition) :
    (s.modCondition c f).bank0 = s.bank0 := rfl
@[simp] theorem State.modCondition_bank1 (s : State) (c : CondName) (f : Condition → Condition) :
    (s.modCondition c f).bank1 = s.bank1 := rfl
@[simp] theorem State.modCondition_active (s : State) (c : CondName) (f : Condition → Condition) :
    (s.modCondition c f).active = s.active := rfl
@[simp] theorem State.modCondition_clock (s : State) (c : CondName) (f : Condition → Condition) :
    (s.modCondition c f).clock = s.clock := rfl
@[simp] theorem State.modCondition_classes (s : State) (c : CondName) (f : Condition → Condition) :
    (s.modCondition c f).classes = s.classes := rfl
@[simp] theorem State.modCondition_trunks (s : State) (c : CondName) (f : Condition → Condition) :
    (s.modCondition c f).trunks = s.trunks := rfl
@[simp] theorem State.modCondition_bookingCounter (s : State) (c : CondName) (f : Condition → Condition) :
    (s.modCondition c f).bookingCounter = s.bookingCounter := rfl
@[simp] theorem State.modCondition_doors (s : State) (c : CondName) (f : Condition → Condition) :
    (s.modCondition c f).doors = s.doors := rfl
@[simp] theorem State.modCondition_movers (s : State) (c : CondName) (f : Condition → Condition) :
    (s.modCondition c f).movers = s.movers := rfl
@[simp] theorem State.modCondition_freeList (s : State) (c : CondName) (f : Condition → Condition) :
    (s.modCondition c f).freeList = s.freeList := rfl
@[simp] theorem State.modCondition_queues (s : State) (c : CondName) (f : Condition → Condition) :
    (s.modCondition c f).queues = s.queues := rfl
@[simp] theorem State.modCondition_lastMove (s : State) (c : CondName) (f : Condition → Condition) :
    (s.modCondition c f).lastMove = s.lastMove := rfl
@[simp] theorem State.modCondition_urgent (s : State) (c : CondName) (f : Condition → Condition) :
    (s.modCondition c f).urgent = s.urgent := rfl
@[simp] theorem State.modCondition_normal (s : State) (c : CondName) (f : Condition → Condition) :
    (s.modCondition c f).normal = s.normal := rfl
@[simp] theorem State.modCondition_bursts (s : State) (c : CondName) (f : Condition → Condition) :
    (s.modCondition c f).bursts = s.bursts := rfl
@[simp] theorem State.modCondition_conditions (s : State) (c : CondName) (f : Condition → Condition) :
    (s.modCondition c f).conditions = setNth s.conditions c.number (f (s.condition c)) := rfl
@[simp] theorem State.modCondition_keepAll (s : State) (c : CondName) (f : Condition → Condition) :
    (s.modCondition c f).keepAll = s.keepAll := rfl
@[simp] theorem State.modCondition_channelA (s : State) (c : CondName) (f : Condition → Condition) :
    (s.modCondition c f).channelA = s.channelA := rfl
@[simp] theorem State.modCondition_channelB (s : State) (c : CondName) (f : Condition → Condition) :
    (s.modCondition c f).channelB = s.channelB := rfl
@[simp] theorem State.modCondition_limits (s : State) (c : CondName) (f : Condition → Condition) :
    (s.modCondition c f).limits = s.limits := rfl
@[simp] theorem State.modCondition_verdictAddress (s : State) (c : CondName) (f : Condition → Condition) :
    (s.modCondition c f).verdictAddress = s.verdictAddress := rfl
@[simp] theorem State.modCondition_frames (s : State) (c : CondName) (f : Condition → Condition) :
    (s.modCondition c f).frames = s.frames := rfl
@[simp] theorem State.modCondition_turn (s : State) (c : CondName) (f : Condition → Condition) :
    (s.modCondition c f).turn = s.turn := rfl
@[simp] theorem State.modCondition_restart (s : State) (c : CondName) (f : Condition → Condition) :
    (s.modCondition c f).restart = s.restart := rfl
@[simp] theorem State.modCondition_pending (s : State) (c : CondName) (f : Condition → Condition) :
    (s.modCondition c f).pending = s.pending := rfl
@[simp] theorem State.modCondition_answer (s : State) (c : CondName) (f : Condition → Condition) :
    (s.modCondition c f).answer = s.answer := rfl
@[simp] theorem State.modCondition_freeCount (s : State) (c : CondName) (f : Condition → Condition) :
    (s.modCondition c f).freeCount = s.freeCount := rfl

/-! ## setStandby -/

@[simp] theorem State.setStandby_floor (s : State) (b : Bank) :
    (s.setStandby b).floor = s.floor := by cases h : s.active <;> simp [State.setStandby, h]
@[simp] theorem State.setStandby_yard (s : State) (b : Bank) :
    (s.setStandby b).yard = s.yard := by cases h : s.active <;> simp [State.setStandby, h]
@[simp] theorem State.setStandby_hub (s : State) (b : Bank) :
    (s.setStandby b).hub = s.hub := by cases h : s.active <;> simp [State.setStandby, h]
@[simp] theorem State.setStandby_unit (s : State) (b : Bank) :
    (s.setStandby b).unit = s.unit := by cases h : s.active <;> simp [State.setStandby, h]
@[simp] theorem State.setStandby_repeats (s : State) (b : Bank) :
    (s.setStandby b).repeats = s.repeats := by cases h : s.active <;> simp [State.setStandby, h]
@[simp] theorem State.setStandby_pallets (s : State) (b : Bank) :
    (s.setStandby b).pallets = s.pallets := by cases h : s.active <;> simp [State.setStandby, h]
@[simp] theorem State.setStandby_bank0 (s : State) (b : Bank) :
    (s.setStandby b).bank0 = if s.active = .bank1 then b else s.bank0 := by cases h : s.active <;> simp [State.setStandby, h]
@[simp] theorem State.setStandby_bank1 (s : State) (b : Bank) :
    (s.setStandby b).bank1 = if s.active = .bank0 then b else s.bank1 := by cases h : s.active <;> simp [State.setStandby, h]
@[simp] theorem State.setStandby_active (s : State) (b : Bank) :
    (s.setStandby b).active = s.active := by cases h : s.active <;> simp [State.setStandby, h]
@[simp] theorem State.setStandby_clock (s : State) (b : Bank) :
    (s.setStandby b).clock = s.clock := by cases h : s.active <;> simp [State.setStandby, h]
@[simp] theorem State.setStandby_classes (s : State) (b : Bank) :
    (s.setStandby b).classes = s.classes := by cases h : s.active <;> simp [State.setStandby, h]
@[simp] theorem State.setStandby_trunks (s : State) (b : Bank) :
    (s.setStandby b).trunks = s.trunks := by cases h : s.active <;> simp [State.setStandby, h]
@[simp] theorem State.setStandby_bookingCounter (s : State) (b : Bank) :
    (s.setStandby b).bookingCounter = s.bookingCounter := by cases h : s.active <;> simp [State.setStandby, h]
@[simp] theorem State.setStandby_doors (s : State) (b : Bank) :
    (s.setStandby b).doors = s.doors := by cases h : s.active <;> simp [State.setStandby, h]
@[simp] theorem State.setStandby_movers (s : State) (b : Bank) :
    (s.setStandby b).movers = s.movers := by cases h : s.active <;> simp [State.setStandby, h]
@[simp] theorem State.setStandby_freeList (s : State) (b : Bank) :
    (s.setStandby b).freeList = s.freeList := by cases h : s.active <;> simp [State.setStandby, h]
@[simp] theorem State.setStandby_queues (s : State) (b : Bank) :
    (s.setStandby b).queues = s.queues := by cases h : s.active <;> simp [State.setStandby, h]
@[simp] theorem State.setStandby_lastMove (s : State) (b : Bank) :
    (s.setStandby b).lastMove = s.lastMove := by cases h : s.active <;> simp [State.setStandby, h]
@[simp] theorem State.setStandby_urgent (s : State) (b : Bank) :
    (s.setStandby b).urgent = s.urgent := by cases h : s.active <;> simp [State.setStandby, h]
@[simp] theorem State.setStandby_normal (s : State) (b : Bank) :
    (s.setStandby b).normal = s.normal := by cases h : s.active <;> simp [State.setStandby, h]
@[simp] theorem State.setStandby_bursts (s : State) (b : Bank) :
    (s.setStandby b).bursts = s.bursts := by cases h : s.active <;> simp [State.setStandby, h]
@[simp] theorem State.setStandby_conditions (s : State) (b : Bank) :
    (s.setStandby b).conditions = s.conditions := by cases h : s.active <;> simp [State.setStandby, h]
@[simp] theorem State.setStandby_keepAll (s : State) (b : Bank) :
    (s.setStandby b).keepAll = s.keepAll := by cases h : s.active <;> simp [State.setStandby, h]
@[simp] theorem State.setStandby_channelA (s : State) (b : Bank) :
    (s.setStandby b).channelA = s.channelA := by cases h : s.active <;> simp [State.setStandby, h]
@[simp] theorem State.setStandby_channelB (s : State) (b : Bank) :
    (s.setStandby b).channelB = s.channelB := by cases h : s.active <;> simp [State.setStandby, h]
@[simp] theorem State.setStandby_limits (s : State) (b : Bank) :
    (s.setStandby b).limits = s.limits := by cases h : s.active <;> simp [State.setStandby, h]
@[simp] theorem State.setStandby_verdictAddress (s : State) (b : Bank) :
    (s.setStandby b).verdictAddress = s.verdictAddress := by cases h : s.active <;> simp [State.setStandby, h]
@[simp] theorem State.setStandby_frames (s : State) (b : Bank) :
    (s.setStandby b).frames = s.frames := by cases h : s.active <;> simp [State.setStandby, h]
@[simp] theorem State.setStandby_turn (s : State) (b : Bank) :
    (s.setStandby b).turn = s.turn := by cases h : s.active <;> simp [State.setStandby, h]
@[simp] theorem State.setStandby_restart (s : State) (b : Bank) :
    (s.setStandby b).restart = s.restart := by cases h : s.active <;> simp [State.setStandby, h]
@[simp] theorem State.setStandby_pending (s : State) (b : Bank) :
    (s.setStandby b).pending = s.pending := by cases h : s.active <;> simp [State.setStandby, h]
@[simp] theorem State.setStandby_answer (s : State) (b : Bank) :
    (s.setStandby b).answer = s.answer := by cases h : s.active <;> simp [State.setStandby, h]
@[simp] theorem State.setStandby_freeCount (s : State) (b : Bank) :
    (s.setStandby b).freeCount = s.freeCount := by cases h : s.active <;> simp [State.setStandby, h]

/-! ## setPort -/

@[simp] theorem State.setPort_floor (s : State) (p : Port) (x : PortState) :
    (s.setPort p x).floor = if p = .floor then x else s.floor := by cases p <;> rfl
@[simp] theorem State.setPort_yard (s : State) (p : Port) (x : PortState) :
    (s.setPort p x).yard = if p = .yard then x else s.yard := by cases p <;> rfl
@[simp] theorem State.setPort_hub (s : State) (p : Port) (x : PortState) :
    (s.setPort p x).hub = s.hub := by cases p <;> rfl
@[simp] theorem State.setPort_unit (s : State) (p : Port) (x : PortState) :
    (s.setPort p x).unit = s.unit := by cases p <;> rfl
@[simp] theorem State.setPort_repeats (s : State) (p : Port) (x : PortState) :
    (s.setPort p x).repeats = s.repeats := by cases p <;> rfl
@[simp] theorem State.setPort_pallets (s : State) (p : Port) (x : PortState) :
    (s.setPort p x).pallets = s.pallets := by cases p <;> rfl
@[simp] theorem State.setPort_bank0 (s : State) (p : Port) (x : PortState) :
    (s.setPort p x).bank0 = s.bank0 := by cases p <;> rfl
@[simp] theorem State.setPort_bank1 (s : State) (p : Port) (x : PortState) :
    (s.setPort p x).bank1 = s.bank1 := by cases p <;> rfl
@[simp] theorem State.setPort_active (s : State) (p : Port) (x : PortState) :
    (s.setPort p x).active = s.active := by cases p <;> rfl
@[simp] theorem State.setPort_clock (s : State) (p : Port) (x : PortState) :
    (s.setPort p x).clock = s.clock := by cases p <;> rfl
@[simp] theorem State.setPort_classes (s : State) (p : Port) (x : PortState) :
    (s.setPort p x).classes = s.classes := by cases p <;> rfl
@[simp] theorem State.setPort_trunks (s : State) (p : Port) (x : PortState) :
    (s.setPort p x).trunks = s.trunks := by cases p <;> rfl
@[simp] theorem State.setPort_bookingCounter (s : State) (p : Port) (x : PortState) :
    (s.setPort p x).bookingCounter = s.bookingCounter := by cases p <;> rfl
@[simp] theorem State.setPort_doors (s : State) (p : Port) (x : PortState) :
    (s.setPort p x).doors = s.doors := by cases p <;> rfl
@[simp] theorem State.setPort_movers (s : State) (p : Port) (x : PortState) :
    (s.setPort p x).movers = s.movers := by cases p <;> rfl
@[simp] theorem State.setPort_freeList (s : State) (p : Port) (x : PortState) :
    (s.setPort p x).freeList = s.freeList := by cases p <;> rfl
@[simp] theorem State.setPort_queues (s : State) (p : Port) (x : PortState) :
    (s.setPort p x).queues = s.queues := by cases p <;> rfl
@[simp] theorem State.setPort_lastMove (s : State) (p : Port) (x : PortState) :
    (s.setPort p x).lastMove = s.lastMove := by cases p <;> rfl
@[simp] theorem State.setPort_urgent (s : State) (p : Port) (x : PortState) :
    (s.setPort p x).urgent = s.urgent := by cases p <;> rfl
@[simp] theorem State.setPort_normal (s : State) (p : Port) (x : PortState) :
    (s.setPort p x).normal = s.normal := by cases p <;> rfl
@[simp] theorem State.setPort_bursts (s : State) (p : Port) (x : PortState) :
    (s.setPort p x).bursts = s.bursts := by cases p <;> rfl
@[simp] theorem State.setPort_conditions (s : State) (p : Port) (x : PortState) :
    (s.setPort p x).conditions = s.conditions := by cases p <;> rfl
@[simp] theorem State.setPort_keepAll (s : State) (p : Port) (x : PortState) :
    (s.setPort p x).keepAll = s.keepAll := by cases p <;> rfl
@[simp] theorem State.setPort_channelA (s : State) (p : Port) (x : PortState) :
    (s.setPort p x).channelA = s.channelA := by cases p <;> rfl
@[simp] theorem State.setPort_channelB (s : State) (p : Port) (x : PortState) :
    (s.setPort p x).channelB = s.channelB := by cases p <;> rfl
@[simp] theorem State.setPort_limits (s : State) (p : Port) (x : PortState) :
    (s.setPort p x).limits = s.limits := by cases p <;> rfl
@[simp] theorem State.setPort_verdictAddress (s : State) (p : Port) (x : PortState) :
    (s.setPort p x).verdictAddress = s.verdictAddress := by cases p <;> rfl
@[simp] theorem State.setPort_frames (s : State) (p : Port) (x : PortState) :
    (s.setPort p x).frames = s.frames := by cases p <;> rfl
@[simp] theorem State.setPort_turn (s : State) (p : Port) (x : PortState) :
    (s.setPort p x).turn = s.turn := by cases p <;> rfl
@[simp] theorem State.setPort_restart (s : State) (p : Port) (x : PortState) :
    (s.setPort p x).restart = s.restart := by cases p <;> rfl
@[simp] theorem State.setPort_pending (s : State) (p : Port) (x : PortState) :
    (s.setPort p x).pending = s.pending := by cases p <;> rfl
@[simp] theorem State.setPort_answer (s : State) (p : Port) (x : PortState) :
    (s.setPort p x).answer = s.answer := by cases p <;> rfl
@[simp] theorem State.setPort_freeCount (s : State) (p : Port) (x : PortState) :
    (s.setPort p x).freeCount = s.freeCount := by cases p <;> rfl

end Sys2Proof.Machine
end

