-- ==== Sys2Proof/Laws/Ports.lean ====
section
/-! SUPPORT. The ports' operations: what placing a frame and ending a transmission can do, and when a frame's check sequence is right. -/

namespace Sys2Proof

/-- A check sequence is four bytes long. -/
@[simp] theorem checkSequence_length (bs : List Byte) : (checkSequence bs).length = 4 := by
  simp [checkSequence, bytesOf]

/-- The content of a frame is what stands before its last four bytes. -/
theorem RawFrame.content_append (bs check : List Byte) (h : check.length = 4) :
    RawFrame.content { bytes := bs ++ check } = bs := by
  simp [RawFrame.content, h]

/-- A frame's check sequence is right exactly when it is the one of its content. -/
theorem RawFrame.checkOk_append (bs check : List Byte) (h : check.length = 4) :
    RawFrame.checkOk { bytes := bs ++ check } = (check == checkSequence bs) := by
  simp [RawFrame.checkOk, RawFrame.content_append bs check h, h]

end Sys2Proof

namespace Sys2Proof.Machine

/-! ## Beginning a transmission -/

/-- A port that is transmitting goes on. -/
theorem PortState.begin_of_sending (p : PortState) (h : p.sending ≠ none) : p.begin = p := by
  unfold PortState.begin
  cases hs : p.sending with
  | none => exact absurd hs h
  | some f => rfl

/-- Beginning a transmission keeps the capacities. -/
theorem PortState.within_begin {p : PortState} (h : p.within) : p.begin.within := by
  unfold PortState.begin
  unfold PortState.within at *
  split <;> simp_all <;> omega

/-- After it a port that holds a frame is transmitting. -/
theorem PortState.busy_begin (p : PortState) : p.begin.busyWhenQueued := by
  unfold PortState.begin PortState.busyWhenQueued
  split <;> simp_all

/-! ## Placing a frame -/

/-- All that placing an own frame can do: nothing when the queue holds 256, else one frame joins its
tail and an idle port begins to transmit. -/
theorem State.placeOwn_cases (s : State) (p : Port) (d : Address) (b : OwnBody) :
    (Config.ownCapacity ≤ (s.port p).own.length ∧ s.placeOwn p d b = s) ∨
    ((s.port p).own.length < Config.ownCapacity ∧
      s.placeOwn p d b =
        s.setPort p ({ s.port p with own := (s.port p).own ++ [s.ownFrame d b] } : PortState).begin) := by
  unfold State.placeOwn
  by_cases h : (s.port p).own.length < Config.ownCapacity
  · exact .inr ⟨h, by simp only [h, if_true]⟩
  · exact .inl ⟨by omega, by simp only [h, if_false]⟩

/-- All that placing a forwarded frame can do. -/
theorem State.placePass_cases (s : State) (p : Port) (bs : List Byte) :
    (Config.passCapacity ≤ (s.port p).pass.length ∧ s.placePass p bs = s) ∨
    ((s.port p).pass.length < Config.passCapacity ∧
      s.placePass p bs =
        s.setPort p ({ s.port p with pass := (s.port p).pass ++ [bs] } : PortState).begin) := by
  unfold State.placePass
  by_cases h : (s.port p).pass.length < Config.passCapacity
  · exact .inr ⟨h, by simp only [h, if_true]⟩
  · exact .inl ⟨by omega, by simp only [h, if_false]⟩

@[simp] theorem State.port_setPort (s : State) (p : Port) (x : PortState) :
    (s.setPort p x).port p = x := by cases p <;> rfl

theorem State.port_setPort_ne (s : State) {p q : Port} (x : PortState) (h : q ≠ p) :
    (s.setPort p x).port q = s.port q := by cases p <;> cases q <;> first | rfl | exact absurd rfl h

/-- Placing an own frame keeps the capacities of every port. -/
theorem State.within_placeOwn {s : State} (p q : Port) (d : Address) (b : OwnBody)
    (h : ∀ r, (s.port r).within) : ((s.placeOwn p d b).port q).within := by
  rcases s.placeOwn_cases p d b with ⟨-, e⟩ | ⟨hl, e⟩ <;> rw [e]
  · exact h q
  · by_cases hq : q = p
    · subst hq
      rw [State.port_setPort]
      refine PortState.within_begin ?_
      have := (h q).1
      refine ⟨this, ?_⟩
      simp only [List.length_append, List.length_cons, List.length_nil]
      omega
    · rw [State.port_setPort_ne _ _ hq]; exact h q

/-- Placing an own frame leaves a port that holds a frame transmitting. -/
theorem State.busy_placeOwn {s : State} (p q : Port) (d : Address) (b : OwnBody)
    (h : ∀ r, (s.port r).busyWhenQueued) : ((s.placeOwn p d b).port q).busyWhenQueued := by
  rcases s.placeOwn_cases p d b with ⟨-, e⟩ | ⟨-, e⟩ <;> rw [e]
  · exact h q
  · by_cases hq : q = p
    · subst hq; rw [State.port_setPort]; exact PortState.busy_begin _
    · rw [State.port_setPort_ne _ _ hq]; exact h q

/-! ## The fields that placing a frame leaves -/

@[simp] theorem State.placeOwn_hub (s : State) (p : Port) (d : Address) (b : OwnBody) :
    (s.placeOwn p d b).hub = s.hub := by
  rcases s.placeOwn_cases p d b with ⟨-, e⟩ | ⟨-, e⟩ <;> simp [e]
@[simp] theorem State.placeOwn_unit (s : State) (p : Port) (d : Address) (b : OwnBody) :
    (s.placeOwn p d b).unit = s.unit := by
  rcases s.placeOwn_cases p d b with ⟨-, e⟩ | ⟨-, e⟩ <;> simp [e]
@[simp] theorem State.placeOwn_repeats (s : State) (p : Port) (d : Address) (b : OwnBody) :
    (s.placeOwn p d b).repeats = s.repeats := by
  rcases s.placeOwn_cases p d b with ⟨-, e⟩ | ⟨-, e⟩ <;> simp [e]
@[simp] theorem State.placeOwn_pallets (s : State) (p : Port) (d : Address) (b : OwnBody) :
    (s.placeOwn p d b).pallets = s.pallets := by
  rcases s.placeOwn_cases p d b with ⟨-, e⟩ | ⟨-, e⟩ <;> simp [e]
@[simp] theorem State.placeOwn_bank0 (s : State) (p : Port) (d : Address) (b : OwnBody) :
    (s.placeOwn p d b).bank0 = s.bank0 := by
  rcases s.placeOwn_cases p d b with ⟨-, e⟩ | ⟨-, e⟩ <;> simp [e]
@[simp] theorem State.placeOwn_bank1 (s : State) (p : Port) (d : Address) (b : OwnBody) :
    (s.placeOwn p d b).bank1 = s.bank1 := by
  rcases s.placeOwn_cases p d b with ⟨-, e⟩ | ⟨-, e⟩ <;> simp [e]
@[simp] theorem State.placeOwn_active (s : State) (p : Port) (d : Address) (b : OwnBody) :
    (s.placeOwn p d b).active = s.active := by
  rcases s.placeOwn_cases p d b with ⟨-, e⟩ | ⟨-, e⟩ <;> simp [e]
@[simp] theorem State.placeOwn_clock (s : State) (p : Port) (d : Address) (b : OwnBody) :
    (s.placeOwn p d b).clock = s.clock := by
  rcases s.placeOwn_cases p d b with ⟨-, e⟩ | ⟨-, e⟩ <;> simp [e]
@[simp] theorem State.placeOwn_classes (s : State) (p : Port) (d : Address) (b : OwnBody) :
    (s.placeOwn p d b).classes = s.classes := by
  rcases s.placeOwn_cases p d b with ⟨-, e⟩ | ⟨-, e⟩ <;> simp [e]
@[simp] theorem State.placeOwn_trunks (s : State) (p : Port) (d : Address) (b : OwnBody) :
    (s.placeOwn p d b).trunks = s.trunks := by
  rcases s.placeOwn_cases p d b with ⟨-, e⟩ | ⟨-, e⟩ <;> simp [e]
@[simp] theorem State.placeOwn_bookingCounter (s : State) (p : Port) (d : Address) (b : OwnBody) :
    (s.placeOwn p d b).bookingCounter = s.bookingCounter := by
  rcases s.placeOwn_cases p d b with ⟨-, e⟩ | ⟨-, e⟩ <;> simp [e]
@[simp] theorem State.placeOwn_doors (s : State) (p : Port) (d : Address) (b : OwnBody) :
    (s.placeOwn p d b).doors = s.doors := by
  rcases s.placeOwn_cases p d b with ⟨-, e⟩ | ⟨-, e⟩ <;> simp [e]
@[simp] theorem State.placeOwn_movers (s : State) (p : Port) (d : Address) (b : OwnBody) :
    (s.placeOwn p d b).movers = s.movers := by
  rcases s.placeOwn_cases p d b with ⟨-, e⟩ | ⟨-, e⟩ <;> simp [e]
@[simp] theorem State.placeOwn_freeList (s : State) (p : Port) (d : Address) (b : OwnBody) :
    (s.placeOwn p d b).freeList = s.freeList := by
  rcases s.placeOwn_cases p d b with ⟨-, e⟩ | ⟨-, e⟩ <;> simp [e]
@[simp] theorem State.placeOwn_queues (s : State) (p : Port) (d : Address) (b : OwnBody) :
    (s.placeOwn p d b).queues = s.queues := by
  rcases s.placeOwn_cases p d b with ⟨-, e⟩ | ⟨-, e⟩ <;> simp [e]
@[simp] theorem State.placeOwn_lastMove (s : State) (p : Port) (d : Address) (b : OwnBody) :
    (s.placeOwn p d b).lastMove = s.lastMove := by
  rcases s.placeOwn_cases p d b with ⟨-, e⟩ | ⟨-, e⟩ <;> simp [e]
@[simp] theorem State.placeOwn_urgent (s : State) (p : Port) (d : Address) (b : OwnBody) :
    (s.placeOwn p d b).urgent = s.urgent := by
  rcases s.placeOwn_cases p d b with ⟨-, e⟩ | ⟨-, e⟩ <;> simp [e]
@[simp] theorem State.placeOwn_normal (s : State) (p : Port) (d : Address) (b : OwnBody) :
    (s.placeOwn p d b).normal = s.normal := by
  rcases s.placeOwn_cases p d b with ⟨-, e⟩ | ⟨-, e⟩ <;> simp [e]
@[simp] theorem State.placeOwn_bursts (s : State) (p : Port) (d : Address) (b : OwnBody) :
    (s.placeOwn p d b).bursts = s.bursts := by
  rcases s.placeOwn_cases p d b with ⟨-, e⟩ | ⟨-, e⟩ <;> simp [e]
@[simp] theorem State.placeOwn_conditions (s : State) (p : Port) (d : Address) (b : OwnBody) :
    (s.placeOwn p d b).conditions = s.conditions := by
  rcases s.placeOwn_cases p d b with ⟨-, e⟩ | ⟨-, e⟩ <;> simp [e]
@[simp] theorem State.placeOwn_keepAll (s : State) (p : Port) (d : Address) (b : OwnBody) :
    (s.placeOwn p d b).keepAll = s.keepAll := by
  rcases s.placeOwn_cases p d b with ⟨-, e⟩ | ⟨-, e⟩ <;> simp [e]
@[simp] theorem State.placeOwn_channelA (s : State) (p : Port) (d : Address) (b : OwnBody) :
    (s.placeOwn p d b).channelA = s.channelA := by
  rcases s.placeOwn_cases p d b with ⟨-, e⟩ | ⟨-, e⟩ <;> simp [e]
@[simp] theorem State.placeOwn_channelB (s : State) (p : Port) (d : Address) (b : OwnBody) :
    (s.placeOwn p d b).channelB = s.channelB := by
  rcases s.placeOwn_cases p d b with ⟨-, e⟩ | ⟨-, e⟩ <;> simp [e]
@[simp] theorem State.placeOwn_limits (s : State) (p : Port) (d : Address) (b : OwnBody) :
    (s.placeOwn p d b).limits = s.limits := by
  rcases s.placeOwn_cases p d b with ⟨-, e⟩ | ⟨-, e⟩ <;> simp [e]
@[simp] theorem State.placeOwn_verdictAddress (s : State) (p : Port) (d : Address) (b : OwnBody) :
    (s.placeOwn p d b).verdictAddress = s.verdictAddress := by
  rcases s.placeOwn_cases p d b with ⟨-, e⟩ | ⟨-, e⟩ <;> simp [e]
@[simp] theorem State.placeOwn_frames (s : State) (p : Port) (d : Address) (b : OwnBody) :
    (s.placeOwn p d b).frames = s.frames := by
  rcases s.placeOwn_cases p d b with ⟨-, e⟩ | ⟨-, e⟩ <;> simp [e]
@[simp] theorem State.placeOwn_turn (s : State) (p : Port) (d : Address) (b : OwnBody) :
    (s.placeOwn p d b).turn = s.turn := by
  rcases s.placeOwn_cases p d b with ⟨-, e⟩ | ⟨-, e⟩ <;> simp [e]
@[simp] theorem State.placeOwn_restart (s : State) (p : Port) (d : Address) (b : OwnBody) :
    (s.placeOwn p d b).restart = s.restart := by
  rcases s.placeOwn_cases p d b with ⟨-, e⟩ | ⟨-, e⟩ <;> simp [e]
@[simp] theorem State.placeOwn_pending (s : State) (p : Port) (d : Address) (b : OwnBody) :
    (s.placeOwn p d b).pending = s.pending := by
  rcases s.placeOwn_cases p d b with ⟨-, e⟩ | ⟨-, e⟩ <;> simp [e]
@[simp] theorem State.placeOwn_answer (s : State) (p : Port) (d : Address) (b : OwnBody) :
    (s.placeOwn p d b).answer = s.answer := by
  rcases s.placeOwn_cases p d b with ⟨-, e⟩ | ⟨-, e⟩ <;> simp [e]
@[simp] theorem State.placeOwn_freeCount (s : State) (p : Port) (d : Address) (b : OwnBody) :
    (s.placeOwn p d b).freeCount = s.freeCount := by
  rcases s.placeOwn_cases p d b with ⟨-, e⟩ | ⟨-, e⟩ <;> simp [e]

@[simp] theorem State.placePass_hub (s : State) (p : Port) (bs : List Byte) :
    (s.placePass p bs).hub = s.hub := by
  rcases s.placePass_cases p bs with ⟨-, e⟩ | ⟨-, e⟩ <;> simp [e]
@[simp] theorem State.placePass_unit (s : State) (p : Port) (bs : List Byte) :
    (s.placePass p bs).unit = s.unit := by
  rcases s.placePass_cases p bs with ⟨-, e⟩ | ⟨-, e⟩ <;> simp [e]
@[simp] theorem State.placePass_repeats (s : State) (p : Port) (bs : List Byte) :
    (s.placePass p bs).repeats = s.repeats := by
  rcases s.placePass_cases p bs with ⟨-, e⟩ | ⟨-, e⟩ <;> simp [e]
@[simp] theorem State.placePass_pallets (s : State) (p : Port) (bs : List Byte) :
    (s.placePass p bs).pallets = s.pallets := by
  rcases s.placePass_cases p bs with ⟨-, e⟩ | ⟨-, e⟩ <;> simp [e]
@[simp] theorem State.placePass_bank0 (s : State) (p : Port) (bs : List Byte) :
    (s.placePass p bs).bank0 = s.bank0 := by
  rcases s.placePass_cases p bs with ⟨-, e⟩ | ⟨-, e⟩ <;> simp [e]
@[simp] theorem State.placePass_bank1 (s : State) (p : Port) (bs : List Byte) :
    (s.placePass p bs).bank1 = s.bank1 := by
  rcases s.placePass_cases p bs with ⟨-, e⟩ | ⟨-, e⟩ <;> simp [e]
@[simp] theorem State.placePass_active (s : State) (p : Port) (bs : List Byte) :
    (s.placePass p bs).active = s.active := by
  rcases s.placePass_cases p bs with ⟨-, e⟩ | ⟨-, e⟩ <;> simp [e]
@[simp] theorem State.placePass_clock (s : State) (p : Port) (bs : List Byte) :
    (s.placePass p bs).clock = s.clock := by
  rcases s.placePass_cases p bs with ⟨-, e⟩ | ⟨-, e⟩ <;> simp [e]
@[simp] theorem State.placePass_classes (s : State) (p : Port) (bs : List Byte) :
    (s.placePass p bs).classes = s.classes := by
  rcases s.placePass_cases p bs with ⟨-, e⟩ | ⟨-, e⟩ <;> simp [e]
@[simp] theorem State.placePass_trunks (s : State) (p : Port) (bs : List Byte) :
    (s.placePass p bs).trunks = s.trunks := by
  rcases s.placePass_cases p bs with ⟨-, e⟩ | ⟨-, e⟩ <;> simp [e]
@[simp] theorem State.placePass_bookingCounter (s : State) (p : Port) (bs : List Byte) :
    (s.placePass p bs).bookingCounter = s.bookingCounter := by
  rcases s.placePass_cases p bs with ⟨-, e⟩ | ⟨-, e⟩ <;> simp [e]
@[simp] theorem State.placePass_doors (s : State) (p : Port) (bs : List Byte) :
    (s.placePass p bs).doors = s.doors := by
  rcases s.placePass_cases p bs with ⟨-, e⟩ | ⟨-, e⟩ <;> simp [e]
@[simp] theorem State.placePass_movers (s : State) (p : Port) (bs : List Byte) :
    (s.placePass p bs).movers = s.movers := by
  rcases s.placePass_cases p bs with ⟨-, e⟩ | ⟨-, e⟩ <;> simp [e]
@[simp] theorem State.placePass_freeList (s : State) (p : Port) (bs : List Byte) :
    (s.placePass p bs).freeList = s.freeList := by
  rcases s.placePass_cases p bs with ⟨-, e⟩ | ⟨-, e⟩ <;> simp [e]
@[simp] theorem State.placePass_queues (s : State) (p : Port) (bs : List Byte) :
    (s.placePass p bs).queues = s.queues := by
  rcases s.placePass_cases p bs with ⟨-, e⟩ | ⟨-, e⟩ <;> simp [e]
@[simp] theorem State.placePass_lastMove (s : State) (p : Port) (bs : List Byte) :
    (s.placePass p bs).lastMove = s.lastMove := by
  rcases s.placePass_cases p bs with ⟨-, e⟩ | ⟨-, e⟩ <;> simp [e]
@[simp] theorem State.placePass_urgent (s : State) (p : Port) (bs : List Byte) :
    (s.placePass p bs).urgent = s.urgent := by
  rcases s.placePass_cases p bs with ⟨-, e⟩ | ⟨-, e⟩ <;> simp [e]
@[simp] theorem State.placePass_normal (s : State) (p : Port) (bs : List Byte) :
    (s.placePass p bs).normal = s.normal := by
  rcases s.placePass_cases p bs with ⟨-, e⟩ | ⟨-, e⟩ <;> simp [e]
@[simp] theorem State.placePass_bursts (s : State) (p : Port) (bs : List Byte) :
    (s.placePass p bs).bursts = s.bursts := by
  rcases s.placePass_cases p bs with ⟨-, e⟩ | ⟨-, e⟩ <;> simp [e]
@[simp] theorem State.placePass_conditions (s : State) (p : Port) (bs : List Byte) :
    (s.placePass p bs).conditions = s.conditions := by
  rcases s.placePass_cases p bs with ⟨-, e⟩ | ⟨-, e⟩ <;> simp [e]
@[simp] theorem State.placePass_keepAll (s : State) (p : Port) (bs : List Byte) :
    (s.placePass p bs).keepAll = s.keepAll := by
  rcases s.placePass_cases p bs with ⟨-, e⟩ | ⟨-, e⟩ <;> simp [e]
@[simp] theorem State.placePass_channelA (s : State) (p : Port) (bs : List Byte) :
    (s.placePass p bs).channelA = s.channelA := by
  rcases s.placePass_cases p bs with ⟨-, e⟩ | ⟨-, e⟩ <;> simp [e]
@[simp] theorem State.placePass_channelB (s : State) (p : Port) (bs : List Byte) :
    (s.placePass p bs).channelB = s.channelB := by
  rcases s.placePass_cases p bs with ⟨-, e⟩ | ⟨-, e⟩ <;> simp [e]
@[simp] theorem State.placePass_limits (s : State) (p : Port) (bs : List Byte) :
    (s.placePass p bs).limits = s.limits := by
  rcases s.placePass_cases p bs with ⟨-, e⟩ | ⟨-, e⟩ <;> simp [e]
@[simp] theorem State.placePass_verdictAddress (s : State) (p : Port) (bs : List Byte) :
    (s.placePass p bs).verdictAddress = s.verdictAddress := by
  rcases s.placePass_cases p bs with ⟨-, e⟩ | ⟨-, e⟩ <;> simp [e]
@[simp] theorem State.placePass_frames (s : State) (p : Port) (bs : List Byte) :
    (s.placePass p bs).frames = s.frames := by
  rcases s.placePass_cases p bs with ⟨-, e⟩ | ⟨-, e⟩ <;> simp [e]
@[simp] theorem State.placePass_turn (s : State) (p : Port) (bs : List Byte) :
    (s.placePass p bs).turn = s.turn := by
  rcases s.placePass_cases p bs with ⟨-, e⟩ | ⟨-, e⟩ <;> simp [e]
@[simp] theorem State.placePass_restart (s : State) (p : Port) (bs : List Byte) :
    (s.placePass p bs).restart = s.restart := by
  rcases s.placePass_cases p bs with ⟨-, e⟩ | ⟨-, e⟩ <;> simp [e]
@[simp] theorem State.placePass_pending (s : State) (p : Port) (bs : List Byte) :
    (s.placePass p bs).pending = s.pending := by
  rcases s.placePass_cases p bs with ⟨-, e⟩ | ⟨-, e⟩ <;> simp [e]
@[simp] theorem State.placePass_answer (s : State) (p : Port) (bs : List Byte) :
    (s.placePass p bs).answer = s.answer := by
  rcases s.placePass_cases p bs with ⟨-, e⟩ | ⟨-, e⟩ <;> simp [e]
@[simp] theorem State.placePass_freeCount (s : State) (p : Port) (bs : List Byte) :
    (s.placePass p bs).freeCount = s.freeCount := by
  rcases s.placePass_cases p bs with ⟨-, e⟩ | ⟨-, e⟩ <;> simp [e]

end Sys2Proof.Machine
end

