-- ==== Sys2Proof/Laws/Event.lean ====
section
/-! SUPPORT. The event loop, one item at a time. -/

namespace Sys2Proof.Machine

/-- An event with no work left is over. -/
theorem drain_of_nil (n : Nat) {e : Ev} (h : e.work = []) : drain n e = some e.s := by
  unfold drain; rw [h]

/-- An event takes the item at the front of its work. -/
theorem drain_of_cons (n : Nat) {e : Ev} {w : Work} {ws : List Work} (h : e.work = w :: ws) :
    drain (n + 1) e = drain n (({ e with work := ws } : Ev).perform w) := by
  conv_lhs => unfold drain
  rw [h]

/-- An event with work left does not finish within no items. -/
theorem drain_zero_of_cons {e : Ev} {w : Work} {ws : List Work} (h : e.work = w :: ws) :
    drain 0 e = none := by
  unfold drain; rw [h]

/-- An event that finishes within `n` items finishes within more. -/
theorem drain_mono {n m : Nat} {e : Ev} {s : State} (h : drain n e = some s) (hm : n ≤ m) :
    drain m e = some s := by
  induction n generalizing m e with
  | zero =>
    cases hw : e.work with
    | nil => rw [drain_of_nil _ hw] at h ⊢; exact h
    | cons w ws => rw [drain_zero_of_cons hw] at h; cases h
  | succ n ih =>
    cases hw : e.work with
    | nil => rw [drain_of_nil _ hw] at h ⊢; exact h
    | cons w ws =>
      obtain ⟨m, rfl⟩ : ∃ k, m = k + 1 := ⟨m - 1, by omega⟩
      rw [drain_of_cons _ hw] at h ⊢
      exact ih h (by omega)

/-- An event that finishes within a number of items below the bound answers the next state. -/
theorem runEvent_of_drain {n : Nat} {e : Ev} {s : State} (h : drain n e = some s)
    (hn : n ≤ Config.eventBound) : runEvent e = .next s := by
  unfold runEvent; rw [drain_mono h hn]

/-- The flushes of a window either find nothing that the cause reaches and are over, or put the flush
of a booking of the window that it reaches before the rest of them. -/
theorem ev_flushBookings_cases (e : Ev) (t : Nat) (cause : Cause) :
    (e.flushBookings t cause = e ∧
        ∀ r, e.s.trunk? t = some r → ∀ b ∈ r.window, cause.reaches b.standing = false) ∨
      ∃ r b, e.s.trunk? t = some r ∧ b ∈ r.window ∧ cause.reaches b.standing = true ∧
        e.flushBookings t cause = e.push [.flush t b.label cause, .flushBookings t cause] := by
  unfold Ev.flushBookings
  cases hr : e.s.trunk? t with
  | none => exact .inl ⟨rfl, by simp⟩
  | some r =>
    cases hb : r.window.find? fun b => cause.reaches b.standing with
    | none => exact .inl ⟨by simp [hb], by simpa using hb⟩
    | some b =>
      exact .inr ⟨r, b, rfl, List.mem_of_find?_eq_some hb,
        List.find?_some (p := fun b : Booking => cause.reaches b.standing) hb, by simp [hb]⟩

/-- Where a cause reaches no booking of a window, its flushes are over. -/
theorem ev_flushBookings_of_none (e : Ev) (t : Nat) (cause : Cause)
    (h : ∀ r, e.s.trunk? t = some r → ∀ b ∈ r.window, cause.reaches b.standing = false) :
    e.flushBookings t cause = e := by
  obtain ⟨h', -⟩ | ⟨r, b, hr, hb, hc, -⟩ := ev_flushBookings_cases e t cause
  · exact h'
  · rw [h r hr b hb] at hc; cases hc

/-- What `closing` makes of a state: the report of LANE_PRESSURE, the grant attempt, the report of
MOVERS_SHORT. -/
theorem drain_closing (n : Nat) (e : Ev) (ws : List Work) (h : e.work = closing ++ ws) :
    drain (n + 3) e = drain n { e with
      work := ws, s := (e.s.reportLanePressure.grantAttempt).reportMoversShort } := by
  rw [drain_of_cons _ (w := .lanePressure) (ws := [.grantAttempt, .moversShort] ++ ws) h]
  rw [drain_of_cons _ (w := .grantAttempt) (ws := [.moversShort] ++ ws) rfl]
  rw [drain_of_cons _ (w := .moversShort) (ws := ws) rfl]
  rfl

/-- An event that has nothing but its closing left. -/
theorem runEvent_closing (e : Ev) (h : e.work = closing) :
    runEvent e = .next (e.s.reportLanePressure.grantAttempt).reportMoversShort :=
  runEvent_of_drain (n := 3) (by rw [drain_closing 0 e [] (by simpa using h)]; rfl) (by decide)

/-- An event that has its closing and one item of work after it. -/
theorem runEvent_closing_then (e : Ev) (w : Work) (h : e.work = closing ++ [w])
    (hw : ∀ e : Ev, e.work = [] → (e.perform w).work = []) :
    runEvent e = .next (({ e with work := [], s :=
      (e.s.reportLanePressure.grantAttempt).reportMoversShort } : Ev).perform w).s := by
  refine runEvent_of_drain (n := 4) ?_ (by decide)
  rw [drain_closing 1 e [w] h, drain_of_cons 0 rfl, drain_of_nil 0 (hw _ rfl)]

end Sys2Proof.Machine
end

