-- ==== Sys2Proof/Laws/Tables.lean ====
section
/-! SUPPORT. Reads after writes of tables and of numbered vectors, and that every table operation keeps the form a table is held in. -/

namespace Sys2Proof.Machine

variable {α : Type}

/-! ## Reads after writes -/

@[simp] theorem Table.get?_nil (k : Nat) : Table.get? ([] : Table α) k = none := rfl

theorem Table.get?_cons (e : Nat × α) (t : Table α) (k : Nat) :
    Table.get? (e :: t) k = if e.1 = k then some e.2 else Table.get? t k := rfl

/-- A read after a write: the value written at its key, the old value at any other. -/
theorem Table.get?_put (t : Table α) (k : Nat) (v : α) (j : Nat) :
    (Table.put t k v).get? j = if j = k then some v else t.get? j := by
  induction t with
  | nil => simp only [Table.put, Table.get?_cons, Table.get?_nil]; grind
  | cons e t ih => simp only [Table.put]; grind [Table.get?_cons]

/-- A read after a change: the record changed at its key, the old one at any other. -/
theorem Table.get?_adjust (t : Table α) (k : Nat) (f : α → α) (j : Nat) :
    (Table.adjust t k f).get? j = if j = k then (t.get? k).map f else t.get? j := by
  induction t with
  | nil => simp [Table.adjust]
  | cons e t ih => simp only [Table.adjust]; grind [Table.get?_cons]

/-- A removal leaves every other key's record. -/
theorem Table.get?_erase_ne (t : Table α) {k j : Nat} (h : j ≠ k) :
    (Table.erase t k).get? j = t.get? j := by
  induction t with
  | nil => simp [Table.erase]
  | cons e t ih => simp only [Table.erase]; grind [Table.get?_cons]

/-! ## The form -/

/-- The form in terms of the first key: every other key is above it. -/
theorem Table.wf_cons (e : Nat × α) (t : Table α) :
    Table.wf (e :: t) = true ↔ (∀ x ∈ t, e.1 < x.1) ∧ t.wf = true := by
  induction t generalizing e with
  | nil => simp [Table.wf]
  | cons x t ih =>
    have := ih x
    simp only [Table.wf, Bool.and_eq_true, decide_eq_true_eq, List.mem_cons, forall_eq_or_imp]
    grind

theorem Table.mem_put {t : Table α} {k : Nat} {v : α} {x : Nat × α} (h : x ∈ t.put k v) :
    x = (k, v) ∨ x ∈ t := by
  induction t with
  | nil => simp_all [Table.put]
  | cons e t ih => simp only [Table.put] at h; grind

theorem Table.wf_put {t : Table α} (h : t.wf = true) (k : Nat) (v : α) :
    (t.put k v).wf = true := by
  induction t with
  | nil => simp [Table.put, Table.wf]
  | cons e t ih =>
    have hw := (Table.wf_cons e t).1 h
    have := ih hw.2
    simp only [Table.put]
    split
    · rw [Table.wf_cons]; grind
    · split
      · rw [Table.wf_cons]; grind
      · rw [Table.wf_cons]
        exact ⟨fun x hx => by rcases Table.mem_put hx with rfl | hx <;> grind, this⟩

theorem Table.key_adjust {t : Table α} {k : Nat} {f : α → α} {x : Nat × α}
    (h : x ∈ t.adjust k f) : ∃ y ∈ t, y.1 = x.1 := by
  induction t with
  | nil => simp_all [Table.adjust]
  | cons e t ih => simp only [Table.adjust] at h; grind

theorem Table.wf_adjust {t : Table α} (h : t.wf = true) (k : Nat) (f : α → α) :
    (t.adjust k f).wf = true := by
  induction t with
  | nil => simp [Table.adjust, Table.wf]
  | cons e t ih =>
    have hw := (Table.wf_cons e t).1 h
    have := ih hw.2
    simp only [Table.adjust]
    split
    · rw [Table.wf_cons]; grind
    · rw [Table.wf_cons]
      refine ⟨fun x hx => ?_, this⟩
      obtain ⟨y, hy, he⟩ := Table.key_adjust hx
      grind

theorem Table.mem_erase {t : Table α} {k : Nat} {x : Nat × α} (h : x ∈ t.erase k) : x ∈ t := by
  induction t with
  | nil => simp_all [Table.erase]
  | cons e t ih => simp only [Table.erase] at h; grind

theorem Table.wf_erase {t : Table α} (h : t.wf = true) (k : Nat) : (t.erase k).wf = true := by
  induction t with
  | nil => simp [Table.erase, Table.wf]
  | cons e t ih =>
    have hw := (Table.wf_cons e t).1 h
    have := ih hw.2
    simp only [Table.erase]
    split
    · exact hw.2
    · rw [Table.wf_cons]
      exact ⟨fun x hx => hw.1 x (Table.mem_erase hx), this⟩

/-- A removal in a table of the one form leaves nothing at its key. -/
theorem Table.get?_erase_self {t : Table α} (h : t.wf = true) (k : Nat) :
    (t.erase k).get? k = none := by
  induction t with
  | nil => simp [Table.erase]
  | cons e t ih =>
    have hw := (Table.wf_cons e t).1 h
    simp only [Table.erase]
    split
    · rename_i he
      have : ∀ u : Table α, (∀ x ∈ u, k < x.1) → u.get? k = none := by
        intro u hu
        induction u with
        | nil => rfl
        | cons y u ihu => rw [Table.get?_cons]; grind
      exact this t (by grind)
    · rw [Table.get?_cons]; grind

/-! ## Lengths -/

@[simp] theorem Table.length_adjust (t : Table α) (k : Nat) (f : α → α) :
    (Table.adjust t k f).length = t.length := by
  induction t with
  | nil => rfl
  | cons e t ih => simp only [Table.adjust]; grind

theorem Table.length_erase_le (t : Table α) (k : Nat) : (Table.erase t k).length ≤ t.length := by
  induction t with
  | nil => simp [Table.erase]
  | cons e t ih => simp only [Table.erase]; grind

theorem Table.length_put_le (t : Table α) (k : Nat) (v : α) :
    (Table.put t k v).length ≤ t.length + 1 := by
  induction t with
  | nil => simp [Table.put]
  | cons e t ih => simp only [Table.put]; grind

/-! ## Numbered vectors -/

/-- A read of a vector after a write. -/
theorem getD_setIfInBounds {k : Nat} (v : Vector α k) (i j : Nat) (x y : α) :
    (v.setIfInBounds i x).getD j y = if j = i ∧ i < k then x else v.getD j y := by
  obtain ⟨a, ha⟩ := v
  simp only [Vector.getD, Vector.setIfInBounds, Array.getD_eq_getD_getElem?,
    Array.getElem?_setIfInBounds]
  grind

/-- A read after a write of the same entry. -/
theorem nth_setNth_self {k : Nat} (v : Vector α k) {n : Nat} (x y : α) (h1 : 1 ≤ n) (h2 : n ≤ k) :
    nth (setNth v n x) n y = x := by
  unfold nth setNth
  have : n ≠ 0 := by omega
  simp only [this, if_false, getD_setIfInBounds]
  rw [if_pos ⟨trivial, by omega⟩]

/-- A read after a write of another entry. -/
theorem nth_setNth_ne {k : Nat} (v : Vector α k) {n m : Nat} (x y : α) (h : m ≠ n) :
    nth (setNth v n x) m y = nth v m y := by
  unfold nth setNth
  by_cases hn : n = 0
  · simp [hn]
  · by_cases hm : m = 0
    · simp [hm]
    · simp only [hn, hm, if_false, getD_setIfInBounds]
      rw [if_neg (by omega)]

/-- The record of a door after a change of door `d`. -/
theorem State.door_modDoor (s : State) (d e : Nat) (f : Door → Door) (h1 : 1 ≤ d) (h2 : d ≤ 48) :
    (s.modDoor d f).door e = if e = d then f (s.door d) else s.door e := by
  by_cases h : e = d
  · subst h; simp [State.door, State.modDoor, nth_setNth_self _ _ _ h1 h2]
  · simp [State.door, State.modDoor, nth_setNth_ne _ _ _ h, h]

/-- A door after a change of door `d`, whatever the number: its own record, or door `d`'s changed one. -/
theorem State.door_modDoor_cases (s : State) (d e : Nat) (f : Door → Door) :
    (s.modDoor d f).door e = s.door e ∨ (e = d ∧ (s.modDoor d f).door e = f (s.door d)) := by
  by_cases h : 1 ≤ d ∧ d ≤ 48
  · rw [s.door_modDoor d e f h.1 h.2]
    split
    · exact .inr ⟨‹_›, rfl⟩
    · exact .inl rfl
  · have : setNth s.doors d (f (s.door d)) = s.doors := by
      unfold setNth
      split
      · rfl
      · rw [Vector.setIfInBounds_eq_of_size_le]; omega
    exact .inl (by unfold State.door State.modDoor; dsimp only; rw [this])

/-- The record of a mover after a change of mover `m`. -/
theorem State.mover_modMover (s : State) (m n : Nat) (f : Mover → Mover) (h1 : 1 ≤ m)
    (h2 : m ≤ 32) :
    (s.modMover m f).mover n = if n = m then f (s.mover m) else s.mover n := by
  by_cases h : n = m
  · subst h; simp [State.mover, State.modMover, nth_setNth_self _ _ _ h1 h2]
  · simp [State.mover, State.modMover, nth_setNth_ne _ _ _ h, h]

/-- Every condition's number is one of the sixteen. -/
theorem CondName.number_range (c : CondName) : 1 ≤ c.number ∧ c.number ≤ 16 := by
  cases c <;> decide

/-- Conditions of different names have different numbers. -/
theorem CondName.number_injective {c d : CondName} (h : c.number = d.number) : c = d := by
  cases c <;> cases d <;> first | rfl | (exact absurd h (by decide))

/-- The record of a condition after a change of condition `c`. -/
theorem State.condition_modCondition (s : State) (c d : CondName) (f : Condition → Condition) :
    (s.modCondition c f).condition d = if d = c then f (s.condition c) else s.condition d := by
  by_cases h : d = c
  · subst h
    simp [State.condition, State.modCondition,
      nth_setNth_self _ _ _ (CondName.number_range d).1 (CondName.number_range d).2]
  · have : d.number ≠ c.number := fun e => h (CondName.number_injective e)
    simp [State.condition, State.modCondition, nth_setNth_ne _ _ _ this, h]

/-- A move queue after a write of queue `q`. -/
theorem State.queue_setQueue (s : State) (q r : Nat) (ls : List Label) (h : q < 49) :
    (s.setQueue q ls).queue r = if r = q then ls else s.queue r := by
  unfold State.queue State.setQueue
  simp only [getD_setIfInBounds]
  grind

/-- The record of a label after a change of the record of label `l`. -/
theorem State.pallet?_modPallet (s : State) (l k : Label) (f : Pallet → Pallet) :
    (s.modPallet l f).pallet? k = if k = l then (s.pallet? l).map f else s.pallet? k := by
  simp only [State.pallet?, State.modPallet, Table.get?_adjust]
  by_cases h : k = l
  · simp [h]
  · have : k.toNat ≠ l.toNat := fun e => h (BitVec.eq_of_toNat_eq e)
    simp [h, this]

/-- The record of a trunk after a change of trunk `t`. -/
theorem State.trunk?_modTrunk (s : State) (t u : Nat) (f : Trunk → Trunk) :
    (s.modTrunk t f).trunk? u = if u = t then (s.trunk? t).map f else s.trunk? u := by
  simp only [State.trunk?, State.modTrunk, Table.get?_adjust]

end Sys2Proof.Machine
end

