-- ==== Sys2Proof/Laws/Kept.lean ====
section
/-! SUPPORT. What an event can change: a property of the state that every primitive write of an event keeps is kept by every operation, by every item of work and by the whole event. -/

namespace Sys2Proof.Machine

/-- A property that every primitive write of an event keeps. The fields of the state that no field
below names (the straps, the repeat list, the banks, the clock, the classes, the settings, the queue of
commands) are written by no item of work at all. -/
structure Kept (P : State → Prop) : Prop where
  modPallet : ∀ {s : State} l f, P s → P (s.modPallet l f)
  dropPallet : ∀ {s : State} l, P s → P (s.dropPallet l)
  modTrunk : ∀ {s : State} t f, (∀ r : Trunk, (f r).placement = r.placement) → P s → P (s.modTrunk t f)
  removeTrunk : ∀ {s : State} t, P s → P (s.removeTrunk t)
  counter : ∀ {s : State}, P s → P { s with bookingCounter := sequenceAfter s.bookingCounter }
  claimUp : ∀ {s : State} d, (s.door d).claims < (s.door d).slots → P s →
    P (s.modDoor d fun x => { x with claims := x.claims + 1 })
  claimDown : ∀ {s : State} d, P s → P (s.modDoor d fun x => { x with claims := x.claims - 1 })
  hold : ∀ {s : State} d v, P s → P (s.modDoor d fun x => { x with hold := v })
  handOver : ∀ {s : State} t d, (s.trunk? t).map Trunk.placement = some (.active d) → P s →
    P (s.handOver t d)
  unplaceNext : ∀ {s : State} t d, (s.trunk? t).map Trunk.placement = some (.next d) → P s →
    P (s.unplaceNext t d)
  movers : ∀ {s : State} x, P s → P { s with movers := x }
  freeList : ∀ {s : State} x, P s → P { s with freeList := x }
  queues : ∀ {s : State} x, P s → P { s with queues := x }
  lastMove : ∀ {s : State} live n, P s → P { s with lastMove := freeMoveNumber live n s.lastMove }
  countBurst : ∀ {s : State} q, q ∈ s.urgent ∨ q ∈ s.normal → P s → P (s.countBurst q)
  modCondition : ∀ {s : State} c f, (∀ r : Condition, (f r).enableA = r.enableA ∧
    (f r).enableB = r.enableB ∧ (f r).bothWays = r.bothWays) → P s → P (s.modCondition c f)
  placeOwn : ∀ {s : State} p d b, P s → P (s.placeOwn p d b)
  giveResult : ∀ {s : State} due r x, P s → P (s.giveResult due r x)

/-! ## Room for a claim -/

/-- Room above the reserve is room below the lane slots. -/
theorem State.room_of_aboveReserve {s : State} {d : Nat} (h : s.roomAboveReserve d = true) :
    s.roomForLoading d = true := by
  unfold State.roomAboveReserve at h
  unfold State.roomForLoading
  simp only [decide_eq_true_eq] at *
  omega

/-- A pallet that passes the single test of R93 has room below the lane slots. -/
theorem State.room_of_claimTest {s : State} {p : Pallet} {d : Nat} (h : s.claimTest p d = true) :
    s.roomForLoading d = true := by
  unfold State.claimTest at h
  repeat' split at h
  all_goals first | exact h | exact State.room_of_aboveReserve h

/-- The release of a claim leaves room where there was room. -/
theorem State.roomForLoading_releaseClaim {s : State} {d : Nat} (l : Label)
    (h : s.roomForLoading d = true) : (s.releaseClaim l).roomForLoading d = true := by
  unfold State.releaseClaim
  split
  · exact h
  · rename_i c _
    unfold State.roomForLoading at *
    simp only [decide_eq_true_eq] at *
    show ((s.modDoor c fun x => { x with claims := x.claims - 1 }).door d).claims <
      ((s.modDoor c fun x => { x with claims := x.claims - 1 }).door d).slots
    rcases s.door_modDoor_cases c d (fun x => { x with claims := x.claims - 1 }) with e | ⟨hd, e⟩ <;>
      rw [e]
    · exact h
    · subst hd
      dsimp only
      omega

namespace Kept

variable {P : State → Prop} {s : State}

/-! ## Named updates -/

theorem foldl {α : Type} {f : State → α → State}
    (h : ∀ {s : State} (x : α), P s → P (f s x)) (xs : List α) (hs : P s) :
    P (xs.foldl f s) := by
  induction xs generalizing s with
  | nil => exact hs
  | cons x xs ih => exact ih (h x hs)

theorem modMover (h : Kept P) (m f) (hs : P s) : P (s.modMover m f) := h.movers _ hs
theorem setQueue (h : Kept P) (q l) (hs : P s) : P (s.setQueue q l) := h.queues _ hs

/-! ## The notice unit -/

theorem noticeTo (h : Kept P) (e c n) (hs : P s) : P (s.noticeTo e c n) := by
  unfold State.noticeTo
  split
  · exact h.placeOwn _ _ _ hs
  · exact hs

theorem sendNotices (h : Kept P) (c) (hs : P s) : P (s.sendNotices c) :=
  h.noticeTo _ _ _ (h.noticeTo _ _ _ hs)

theorem changeRaw (h : Kept P) (c v x) (hs : P s) : P (s.changeRaw c v x) := by
  unfold State.changeRaw
  dsimp only
  split
  · exact h.sendNotices _ (h.modCondition _ _ (fun _ => ⟨rfl, rfl, rfl⟩) hs)
  · exact h.modCondition _ _ (fun _ => ⟨rfl, rfl, rfl⟩) hs

theorem raise (h : Kept P) (c x) (hs : P s) : P (s.raise c x) := by
  unfold State.raise
  split
  · exact hs
  · exact h.changeRaw _ _ _ hs

theorem report (h : Kept P) (c x) (hs : P s) : P (s.report c x) := by
  unfold State.report
  split
  · exact hs
  · exact h.changeRaw _ _ _ hs

theorem reportCount (h : Kept P) (hs : P s) : P s.reportCount := h.report _ _ hs
theorem reportLanePressure (h : Kept P) (hs : P s) : P s.reportLanePressure := h.report _ _ hs
theorem reportBalanceHold (h : Kept P) (hs : P s) : P s.reportBalanceHold := h.report _ _ hs
theorem reportMoversShort (h : Kept P) (hs : P s) : P s.reportMoversShort := h.report _ _ hs

/-! ## The move arbiter -/

theorem sendDirective (h : Kept P) (m d) (hs : P s) : P (s.sendDirective m d) := by
  unfold State.sendDirective
  split
  · exact h.placeOwn _ _ _ hs
  · exact hs

theorem freeMover (h : Kept P) (m) (hs : P s) : P (s.freeMover m) := by
  unfold State.freeMover
  dsimp only
  split
  · exact h.modMover _ _ hs
  · exact h.freeList _ (h.modMover _ _ hs)

theorem idleMover (h : Kept P) (m x) (hs : P s) : P (s.idleMover m x) :=
  h.freeList _ (h.modMover _ _ hs)

theorem unqueue (h : Kept P) (q l) (hs : P s) : P (s.unqueue q l) := h.setQueue _ _ hs

theorem makeMove (h : Kept P) (l k a b q) (hs : P s) : P (s.makeMove l k a b q) :=
  h.lastMove _ _ (h.setQueue _ _ (h.modPallet _ _ hs))

theorem freeMoverOf (h : Kept P) (mv c) (hs : P s) : P (s.freeMoverOf mv c) := by
  unfold State.freeMoverOf
  split
  · exact hs
  · split
    · exact h.freeMover _ (h.sendDirective _ _ hs)
    · exact h.freeMover _ hs

theorem takeMove (h : Kept P) (l c) (hs : P s) : P (s.takeMove l c) := by
  unfold State.takeMove
  split
  · exact hs
  · dsimp only
    split
    · exact h.unqueue _ _ (h.modPallet _ _ hs)
    · exact h.freeMoverOf _ _ (h.modPallet _ _ hs)
    · exact h.freeMoverOf _ _ (h.modPallet _ _ hs)

theorem endMove (h : Kept P) (l) (hs : P s) : P (s.endMove l) := h.takeMove _ _ hs
theorem withdrawMove (h : Kept P) (l) (hs : P s) : P (s.withdrawMove l) := h.takeMove _ _ hs

theorem returnMove (h : Kept P) (l) (hs : P s) : P (s.returnMove l) := by
  unfold State.returnMove
  split
  · exact hs
  · exact h.setQueue _ _ (h.modPallet _ _ hs)

theorem giveBack (h : Kept P) (m) (hs : P s) : P (s.giveBack m) := by
  unfold State.giveBack
  split
  · exact hs
  · exact h.returnMove _ hs

theorem redirect (h : Kept P) (l k d) (hs : P s) : P (s.redirect l k d) := by
  unfold State.redirect
  split
  · split
    · exact h.sendDirective _ _ hs
    · exact hs
  · exact hs

theorem redirectMove (h : Kept P) (l k d q) (hs : P s) : P (s.redirectMove l k d q) :=
  h.modPallet _ _ (h.redirect _ _ _ hs)

theorem redirectHome (h : Kept P) (l d) (hs : P s) : P (s.redirectHome l d) := by
  unfold State.redirectHome
  split
  · exact h.endMove _ (h.redirect _ _ _ hs)
  · exact hs

theorem queueRework (h : Kept P) (l) (hs : P s) : P (s.queueRework l) := by
  unfold State.queueRework
  split
  · split
    · exact hs
    · exact h.makeMove _ _ _ _ _ hs
  · exact hs

theorem expireOffer (h : Kept P) (m) (hs : P s) : P (s.expireOffer m) :=
  h.raise _ _ (h.idleMover _ _ (h.giveBack _ hs))

theorem expireMove (h : Kept P) (m) (hs : P s) : P (s.expireMove m) := by
  unfold State.expireMove
  split
  · exact hs
  · exact h.raise _ _ (h.modPallet _ _ hs)

/-- The chosen queue stands in one of the rotation lists. -/
theorem mem_of_chooseQueue {q : Nat} (e : s.chooseQueue = some q) : q ∈ s.urgent ∨ q ∈ s.normal := by
  unfold State.chooseQueue at e
  rcases Option.or_eq_some_iff.1 e with e | ⟨-, e⟩
  · exact .inl (List.mem_of_find?_eq_some e)
  · exact .inr (List.mem_of_find?_eq_some e)

theorem sendOffer (h : Kept P) (l m) (hs : P s) : P (s.sendOffer l m) := by
  unfold State.sendOffer
  split
  · split
    · exact h.sendDirective _ _ hs
    · exact hs
  · exact hs

theorem grant (h : Kept P) (m q l) (hq : q ∈ s.urgent ∨ q ∈ s.normal) (hs : P s) : P (s.grant m q l) := by
  unfold State.grant
  dsimp only
  split
  · exact h.expireOffer _ (h.sendOffer _ _ (h.modMover _ _ (h.modPallet _ _
      (h.setQueue _ _ (h.freeList _ (h.countBurst _ hq hs))))))
  · exact h.sendOffer _ _ (h.modMover _ _ (h.modPallet _ _
      (h.setQueue _ _ (h.freeList _ (h.countBurst _ hq hs)))))

theorem grants (h : Kept P) (n) (hs : P s) : P (s.grants n) := by
  induction n generalizing s with
  | zero => exact hs
  | succ n ih =>
    unfold State.grants
    split
    · rename_i e
      split
      · exact ih (h.grant _ _ _ (mem_of_chooseQueue e) hs)
      · exact hs
    · exact hs

theorem grantAttempt (h : Kept P) (hs : P s) : P s.grantAttempt := h.grants _ hs

/-! ## Booking and claims -/

theorem leaveHeld (h : Kept P) (t l) (hs : P s) : P (s.leaveHeld t l) :=
  h.modTrunk _ _ (fun _ => rfl) hs
theorem joinHeld (h : Kept P) (t l) (hs : P s) : P (s.joinHeld t l) :=
  h.modTrunk _ _ (fun _ => rfl) hs

theorem makeBooking (h : Kept P) (p c) (hs : P s) : P (s.makeBooking p c) :=
  h.modPallet _ _ (h.joinHeld _ _ (h.modTrunk _ _ (fun _ => rfl) (h.counter hs)))

theorem carryOver (h : Kept P) (t d l) (hs : P s) : P (s.carryOver t d l) := by
  unfold State.carryOver
  split
  · split
    · exact h.modPallet _ _ (h.leaveHeld _ _ hs)
    · exact hs
  · exact hs

theorem enterException (h : Kept P) (l r) (hs : P s) : P (s.enterException l r) :=
  h.modPallet _ _ hs

theorem takeClaim (h : Kept P) (l d) (hr : s.roomForLoading d = true) (hs : P s) :
    P (s.takeClaim l d) :=
  h.modPallet _ _ (h.claimUp d (of_decide_eq_true hr) hs)

theorem releaseClaim (h : Kept P) (l) (hs : P s) : P (s.releaseClaim l) := by
  unfold State.releaseClaim
  split
  · exact hs
  · exact h.modPallet _ _ (h.claimDown _ hs)

theorem freeRecord (h : Kept P) (l) (hs : P s) : P (s.freeRecord l) :=
  h.reportCount (h.dropPallet _ (h.releaseClaim _ (h.withdrawMove _ hs)))

/-! ## Grant passes -/

theorem grantClaim (h : Kept P) (l d) (hr : s.roomForLoading d = true) (hs : P s) :
    P (s.grantClaim l d).1 := by
  unfold State.grantClaim
  split
  · exact hs
  · split
    · exact h.takeClaim _ _ hr hs
    · rename_i p _ _
      have held : ∀ s, P s → P (match p.trunk with
          | some t => s.leaveHeld t l
          | none => s) := by
        intro s hs
        split
        · exact h.leaveHeld _ _ hs
        · exact hs
      have room : (match p.trunk with
          | some t => s.leaveHeld t l
          | none => s).roomForLoading d = true := by
        split
        · exact hr
        · exact hr
      have base := h.takeClaim l d (State.roomForLoading_releaseClaim l room)
        (h.releaseClaim l (held s hs))
      dsimp only
      split
      · exact h.modPallet _ _ base
      · split
        · exact h.modPallet _ _ base
        · exact h.makeMove _ _ _ _ _ (h.modPallet _ _ base)

/-- A list of grants whose test leaves room below the lane slots. -/
theorem grantList (h : Kept P) (d a test)
    (ht : ∀ s : State, test s d = true → s.roomForLoading d = true)
    (ls : List Label) (r : PassResult) (hr : P r.state) :
    P (Machine.grantList d a test ls r).1.state := by
  induction ls generalizing r with
  | nil => exact hr
  | cons l ls ih =>
    unfold Machine.grantList
    split
    · rename_i hd
      exact ih _ (h.grantClaim _ _ (ht _ hd) hr)
    · exact hr

theorem carryOverAll (h : Kept P) (t d) (hs : P s) : P (s.carryOverAll t d) := by
  unfold State.carryOverAll
  split
  · exact hs
  · split
    · exact hs
    · exact foldl (fun l hs => h.carryOver _ _ l hs) _ hs

theorem grantPass (h : Kept P) (d) (hs : P s) : P (s.grantPass d).state := by
  have base := h.carryOverAll (s.door d).next d (h.carryOverAll (s.door d).active d hs)
  unfold State.grantPass
  dsimp only
  split
  · exact h.grantList _ _ _ (fun _ => State.room_of_aboveReserve) _ _
      (h.grantList _ _ _ (fun _ => id) _ _ base)
  · exact h.grantList _ _ _ (fun _ => id) _ _ base

/-! ## Releases and flushes -/

theorem releaseBooking (h : Kept P) (t d b f p x) (hs : P s) :
    P (s.releaseBooking t d b f p x) :=
  h.makeMove _ _ _ _ _ (h.hold _ _ (h.modPallet _ _ (h.modTrunk _ _ (fun _ => by
    cases f <;> rfl) hs)))

theorem withdrawRelease (h : Kept P) (t l) (hs : P s) : P (s.withdrawRelease t l) :=
  h.modTrunk _ _ (fun _ => by split <;> rfl) hs

theorem treatMisload (h : Kept P) (t p) (hs : P s) : P (s.treatMisload t p).state :=
  h.withdrawRelease _ _ (h.releaseClaim _ (h.endMove _ hs))

theorem treat (h : Kept P) (t p) (hs : P s) : P (s.treat t p).state := by
  unfold State.treat
  dsimp only
  split
  · split
    · exact h.releaseClaim _ hs
    · exact h.releaseClaim _ (h.withdrawMove _ hs)
  · have base := h.withdrawRelease t p.label hs
    have move : ∀ c : Bool, P (if c then
        (s.withdrawRelease t p.label).redirectHome p.label
          ((p.move.map Move.source).getD p.location)
        else (s.withdrawRelease t p.label).withdrawMove p.label) := by
      intro c
      split
      · exact h.redirectHome _ _ base
      · exact h.withdrawMove _ base
    split
    · exact h.releaseClaim _ (move _)
    · exact move _
  · exact hs

theorem withdrawBooking (h : Kept P) (t l) (hs : P s) : P (s.withdrawBooking t l) :=
  h.modPallet _ _ (h.modTrunk _ _ (fun _ => rfl) hs)

theorem rebookFailed (h : Kept P) (l f) (hs : P s) : P (s.rebookFailed l f) := by
  have base := h.releaseClaim l (h.raise .unrouted (.label l) (h.enterException l .rebookFailed hs))
  unfold State.rebookFailed
  dsimp only
  split
  · exact h.redirectMove _ _ _ _ base
  · exact h.queueRework _ base

theorem enterClosing (h : Kept P) (t) (hs : P s) : P (s.enterClosing t) :=
  h.raise _ _ (h.modTrunk _ _ (fun _ => rfl) hs)

theorem moverDeadline (h : Kept P) (m) (hs : P s) : P (s.moverDeadline m) := by
  unfold State.moverDeadline
  split
  · exact h.expireOffer _ hs
  · split
    · exact h.expireMove _ hs
    · exact hs

theorem sendVerdict (h : Kept P) (a v) (hs : P s) : P (s.sendVerdict a v) :=
  h.placeOwn _ _ _ (h.placeOwn _ _ _ hs)

/-! ## Items of work -/

variable {e : Ev}

theorem ev_pass (h : Kept P) (d v) (he : P e.s) : P (e.pass d v).s := by
  unfold Ev.pass
  split
  · exact he
  · exact h.grantPass _ he

theorem ev_attempt (_ : Kept P) (t) (he : P e.s) : P (e.attempt t).s := by
  unfold Ev.attempt
  repeat' split
  all_goals exact he

theorem ev_attemptDone (_ : Kept P) (t) (he : P e.s) : P (e.attemptDone t).s := by
  unfold Ev.attemptDone
  dsimp only
  split <;> exact he

theorem ev_endWalk (h : Kept P) (w) (he : P e.s) : P (e.endWalk w).s := by
  unfold Ev.endWalk
  dsimp only [Ev.push]
  split
  · exact h.hold _ _ he
  · exact he

theorem ev_release (h : Kept P) (w b f p x) (he : P e.s) : P (e.release w b f p x).s := by
  have base := h.releaseBooking w.trunk w.door b f p x he
  unfold Ev.release
  dsimp only
  split
  · exact h.modPallet _ _ base
  · exact base

theorem ev_walk (h : Kept P) (w) (he : P e.s) : P (e.walk w).s := by
  unfold Ev.walk
  split
  · exact h.ev_endWalk _ he
  · split
    · exact h.ev_endWalk _ he
    · split
      · exact h.ev_endWalk _ he
      · dsimp only
        split
        · split
          · exact he
          · split
            · exact h.ev_endWalk _ (h.ev_release _ _ _ _ _ he)
            · split
              · exact h.ev_release _ _ _ _ _ he
              · exact he
        · exact he

theorem ev_book (h : Kept P) (p c) (he : P e.s) : P (e.book p c).1.s := by
  have base := h.makeBooking p c he
  unfold Ev.book
  dsimp only
  repeat' split
  all_goals first | exact base | exact h.carryOver _ _ _ base

theorem ev_rebook (h : Kept P) (l f ds) (he : P e.s) : P (e.rebook l f ds).1.s := by
  unfold Ev.rebook
  dsimp only
  split
  · exact he
  · split
    · exact h.rebookFailed _ _ (h.modPallet _ _ he)
    · rename_i p _ _ c _
      have ms : ∀ s', P s' → P (Ev.book { e with s := s' } p c).1.s :=
        fun s' hs' => h.ev_book (e := { e with s := s' }) p c hs'
      generalize hb : Ev.book _ p c = b
      have base : P b.1.s := hb ▸ ms _ (h.modPallet l _ he)
      repeat' split
      all_goals first
        | exact base
        | (rename_i hc
           exact h.grantClaim _ _ (State.room_of_claimTest (Bool.and_eq_true_iff.1 hc).2) base)

theorem ev_flush (h : Kept P) (t l c) (he : P e.s) : P (e.flush t l c).s := by
  unfold Ev.flush
  split
  · exact h.modTrunk _ _ (fun _ => rfl) he
  · rename_i p _
    have base : ∀ x : Treated, P x.state → P (((x.state.withdrawBooking t l).modPallet l
        fun p => { p with excluded := excludeTrunk p.excluded t }).raise .flush (.trunk t)) :=
      fun x hx => h.raise _ _ (h.modPallet _ _ (h.withdrawBooking t l hx))
    have again : ∀ s', P s' → ∀ f ds, P (Ev.rebook { e with s := s' } l f ds).1.s :=
      fun s' hs' f ds => h.ev_rebook (e := { e with s := s' }) l f ds hs'
    dsimp only
    split
    · exact base _ (h.treatMisload _ _ he)
    · exact again _ (base _ (h.treat _ _ he)) _ _

theorem ev_redirectForks (h : Kept P) (l) (he : P e.s) : P (e.redirectForks l).s := by
  unfold Ev.redirectForks
  repeat' split
  all_goals first
    | exact he
    | exact h.redirectMove _ _ _ _ he
    | exact h.modPallet _ _ (h.redirectHome _ _ he)

theorem ev_flushEnd (_ : Kept P) (t ds x c a) (he : P e.s) : P (e.flushEnd t ds x c a).s := he

theorem ev_flushBookings (_ : Kept P) (t c) (he : P e.s) : P (e.flushBookings t c).s := by
  unfold Ev.flushBookings
  split <;> exact he

theorem ev_enterDue (h : Kept P) (t) (he : P e.s) : P (e.enterDue t).s := by
  unfold Ev.enterDue
  split
  · exact he
  · refine h.modTrunk _ _ (fun _ => rfl) ?_
    split
    · exact h.enterClosing _ he
    · exact he

theorem ev_dueEnd (h : Kept P) (t f) (he : P e.s) : P (e.dueEnd t f).s := by
  unfold Ev.dueEnd
  split
  · exact h.raise _ _ he
  · exact he

theorem ev_trunkDeadline (h : Kept P) (t) (he : P e.s) : P (e.trunkDeadline t).s := by
  unfold Ev.trunkDeadline
  split
  · exact h.ev_enterDue _ he
  · split
    · exact h.enterClosing _ he
    · exact he

theorem ev_leaveDoor (h : Kept P) (t) (he : P e.s) : P (e.leaveDoor t).s := by
  unfold Ev.leaveDoor
  split
  · exact h.reportBalanceHold (h.handOver _ _ ‹_› he)
  · exact h.unplaceNext _ _ ‹_› he
  · exact he

/-- Every item of work keeps the property. -/
theorem perform (h : Kept P) (w : Work) (he : P e.s) : P (e.perform w).s := by
  cases w with
  | pass d v => exact h.ev_pass d v he
  | attempt t => exact h.ev_attempt t he
  | walk w => exact h.ev_walk w he
  | attemptDone t => exact h.ev_attemptDone t he
  | flush t l c => exact h.ev_flush t l c he
  | redirectForks l => exact h.ev_redirectForks l he
  | flushEnd t ds x c a => exact h.ev_flushEnd t ds x c a he
  | flushBookings t c => exact h.ev_flushBookings t c he
  | dueEnd t f => exact h.ev_dueEnd t f he
  | trunkReport => exact he
  | moverReport => exact he
  | trunkDeadlines ts =>
    cases ts with
    | nil => exact he
    | cons t ts => exact h.ev_trunkDeadline (e := e.push _) t he
  | moverDeadlines ms => exact foldl (fun m hs => h.moverDeadline m hs) ms he
  | leaveDoor t => exact h.ev_leaveDoor t he
  | freeLoaded t => exact foldl (fun l hs => h.freeRecord l hs) _ he
  | removeTrunk t => exact h.removeTrunk _ he
  | lanePressure => exact h.reportLanePressure he
  | balanceHold => exact h.reportBalanceHold he
  | grantAttempt => exact h.grantAttempt he
  | moversShort => exact h.reportMoversShort he
  | verdict a k x r => exact h.sendVerdict _ _ he
  | answer due => exact h.giveResult _ _ _ he
  | answerRelease due => exact h.giveResult _ _ _ he

/-- A whole event keeps the property. -/
theorem drain (h : Kept P) (n : Nat) {t : State} (he : P e.s)
    (ht : Machine.drain n e = some t) : P t := by
  induction n generalizing e with
  | zero =>
    cases hw : e.work with
    | nil => rw [drain_of_nil _ hw] at ht; cases ht; exact he
    | cons w ws => rw [drain_zero_of_cons hw] at ht; cases ht
  | succ n ih =>
    cases hw : e.work with
    | nil => rw [drain_of_nil _ hw] at ht; cases ht; exact he
    | cons w ws =>
      rw [drain_of_cons _ hw] at ht
      exact ih (h.perform (e := { e with work := ws }) w he) ht

theorem runEvent (h : Kept P) {t : State} (he : P e.s) (ht : Machine.runEvent e = .next t) :
    P t := by
  unfold Machine.runEvent at ht
  split at ht
  · rename_i hd
    cases ht
    exact h.drain _ he hd
  · cases ht

end Kept

end Sys2Proof.Machine
end

