-- ==== Sys2Proof/Laws/Taken.lean ====
section
/-! SUPPORT. What a scan, a terminal frame and a request can do: a property that an event keeps is kept by the whole of each. -/

/-- A property of the state that a request's rule leaves: of the next state, or of the state with
which its event begins. -/
def Sys2Proof.Machine.Taken.All (P : Sys2Proof.Machine.State → Prop) :
    Sys2Proof.Machine.Taken → Prop
  | .refused _ => True
  | .done s _ => P s
  | .event e => P e.s
  | .release e => P e.s

namespace Sys2Proof.Machine.Kept

variable {P : State → Prop} {s t : State}

/-! ## Scans -/

theorem failIntake (h : Kept P) (l r c) (hs : P s) : P (s.failIntake l r c) :=
  h.queueRework _ (h.raise _ _ (h.enterException _ _ hs))

theorem checkIn (h : Kept P) {e : Ev} (l) (he : P e.s) : P (e.checkIn l).1.s := by
  unfold Ev.checkIn
  split
  · exact he
  · rename_i p _
    split
    · exact h.failIntake _ _ _ he
    · have heavy : ∀ b : Bool, P (if b then
          (e.s.modPallet l fun p => { p with flags := { p.flags with overweight := true } }).raise
            .weight (.label l) else e.s) := by
        intro b
        split
        · exact h.raise _ _ (h.modPallet _ _ he)
        · exact he
      have hb := heavy (decide (p.typeLimit < p.measured))
      dsimp only
      split
      · exact h.failIntake _ _ _ (h.modPallet _ _ hb)
      · split
        · exact h.modPallet _ _ hb
        · rename_i q _
          exact h.ev_book (e := { e with s := _ }) _ _ (h.modPallet _ _ hb)

theorem releaseElsewhere (h : Kept P) (p d) (hs : P s) : P (s.releaseElsewhere p d).1 := by
  unfold State.releaseElsewhere
  repeat' split
  all_goals first | exact hs | exact h.releaseClaim _ hs

theorem renewLoad (h : Kept P) (p d x m) (hs : P s) : P (s.renewLoad p d x m) :=
  h.makeMove _ _ _ _ _ (h.modPallet _ _ (h.endMove _ hs))

theorem becomeMisloaded (h : Kept P) (l t) (hs : P s) : P (s.becomeMisloaded l t) :=
  h.raise _ _ (h.modPallet _ _ hs)

/-- The intake of a new label, for a property that a record made below the capacity keeps. -/
theorem intakeNew (h : Kept P)
    (ha : ∀ {s : State} p, s.pallets.length < Config.palletCapacity → P s → P (s.addPallet p))
    (scan) (hs : P s) : P (Machine.intakeNew s scan).1.s := by
  unfold Machine.intakeNew
  split
  · exact hs
  · exact h.checkIn (e := Ev.ofScan _ _) _ (h.reportCount (ha _ (by omega) hs))

theorem intakeKnown (h : Kept P) (p scan) (hs : P s) : P (Machine.intakeKnown s p scan).1.s := by
  unfold Machine.intakeKnown
  split
  · exact h.checkIn (e := Ev.ofScan _ _) _ (h.modPallet _ _ (h.releaseClaim _ (h.withdrawMove _ hs)))
  · exact h.raise _ _ hs

theorem laneUnplanned (h : Kept P) (p d) (hs : P s) : P (Machine.laneUnplanned s p d).1.s := by
  have tail : ∀ u : State, P u →
      P (if (!decide (p.claimDoor = some d) && (u.releaseElsewhere p d).1.claimTest p d) = true then
          (u.releaseElsewhere p d).1.takeClaim p.label d
        else (u.releaseElsewhere p d).1) := by
    intro u hu
    split
    · rename_i hc
      exact h.takeClaim _ _ (State.room_of_claimTest (Bool.and_eq_true_iff.1 hc).2)
        (h.releaseElsewhere p d hu)
    · exact h.releaseElsewhere p d hu
  unfold Machine.laneUnplanned
  refine h.modPallet _ _ (tail _ ?_)
  split
  · exact h.leaveHeld _ _ hs
  · exact hs

theorem laneMisplaced (h : Kept P) (p d) (hs : P s) : P (Machine.laneMisplaced s p d).1.s := by
  have base := h.modPallet p.label (fun p => { p with location := .lane d, state := .held })
    (h.releaseElsewhere p d hs)
  unfold Machine.laneMisplaced
  dsimp only [Ev.ofScan]
  split
  · exact h.joinHeld _ _ base
  · exact base

theorem laneKnown (h : Kept P) (p d) (hs : P s) : P (Machine.laneKnown s p d).1.s := by
  have arrival : P (Machine.laneArrival s p d).1.s := h.modPallet _ _ (h.endMove _ hs)
  have mislane : ∀ c, P (Machine.laneMislane s p d c).1.s := fun c =>
    h.raise _ _ (h.makeMove _ _ _ _ _ (h.modPallet _ _ (h.endMove _ hs)))
  have rescan : P (Machine.laneRescan s p d).1.s := by
    unfold Machine.laneRescan
    split
    · rename_i hc
      exact h.takeClaim _ _ (State.room_of_claimTest (Bool.and_eq_true_iff.1 hc).2) hs
    · exact hs
  have released : ∀ x, P (Machine.laneReleased s p d x).1.s := by
    intro x
    unfold Machine.laneReleased
    repeat' split
    · exact h.renewLoad _ _ _ _ hs
    · exact hs
    · exact h.raise _ _ (h.renewLoad _ _ _ _ hs)
  have stray : P (Machine.laneStray s p d).1.s :=
    h.raise _ _ (h.queueRework _ (h.modPallet _ _ hs))
  unfold Machine.laneKnown
  repeat' split
  all_goals first
    | with_reducible exact arrival
    | with_reducible exact mislane _
    | with_reducible exact rescan
    | with_reducible exact released _
    | with_reducible exact stray
    | with_reducible exact h.laneMisplaced _ _ hs
    | with_reducible exact h.laneUnplanned _ _ hs
    | exact h.raise _ _ hs

theorem unplannedPosition (h : Kept P) {e : Ev} (p t r) (he : P e.s) :
    P (e.unplannedPosition p t r).1.s := by
  unfold Ev.unplannedPosition
  dsimp only
  split
  · exact h.modPallet _ _ he
  · refine h.modPallet _ _ (h.modTrunk _ _ (fun r => ?_) he)
    unfold Trunk.place
    split <;> rfl

theorem loadUnplanned (h : Kept P) (p t d r) (hs : P s) :
    P (Machine.loadUnplanned s p t d r).1.s := by
  have base := h.unplannedPosition (e := Ev.ofScan _ p.label) p t r
    (h.modPallet p.label (fun p =>
      { p with
        state := .loaded, location := .trailer t
        flags := { p.flags with unplanned := true } })
      (h.modTrunk t (·.loadBooking p.label) (fun _ => rfl)
        (h.leaveHeld t p.label (h.releaseClaim p.label (h.endMove p.label hs)))))
  unfold Machine.loadUnplanned
  dsimp only
  split
  · exact h.raise _ _ base
  · exact base

theorem loadKnown (h : Kept P) (p d) (hs : P s) : P (Machine.loadKnown s p d).1.s := by
  have unbooked : ∀ t, P (Machine.loadUnbookedMisload s p t).1.s := fun t =>
    h.becomeMisloaded _ _ (h.endMove _ hs)
  have booked : ∀ t u, P (Machine.loadBookedMisload s p t u).1.s := fun t u =>
    h.becomeMisloaded _ _ (h.ev_flush (e := Ev.ofScan _ _) _ _ _ hs)
  have planned : ∀ t, P (Machine.loadPlanned s p t).1.s := fun t =>
    h.releaseClaim _ (h.modPallet _ _ (h.modTrunk _ _ (fun _ => rfl) (h.endMove _ hs)))
  have loaded : ∀ t, P (Machine.loadLoaded s p t).1.s := by
    intro t
    unfold Machine.loadLoaded
    split
    · exact hs
    · exact h.raise _ _ hs
  unfold Machine.loadKnown
  repeat' split
  all_goals first
    | with_reducible exact loaded _
    | with_reducible exact unbooked _
    | with_reducible exact booked _ _
    | with_reducible exact planned _
    | with_reducible exact h.loadUnplanned _ _ _ _ hs
    | exact h.raise _ _ hs

theorem reworkKnown (h : Kept P) (p) (hs : P s) : P (Machine.reworkKnown s p).1.s := by
  have take : P (Machine.reworkTake s p).1.s := h.modPallet _ _ (h.endMove _ hs)
  have withdraw : ∀ t, P (Machine.reworkWithdraw s p t).1.s := fun t =>
    h.modPallet _ _ (h.withdrawBooking _ _ (h.withdrawRelease _ _ (h.releaseClaim _
      (h.endMove _ hs))))
  unfold Machine.reworkKnown
  repeat' split
  all_goals first
    | with_reducible exact take
    | with_reducible exact withdraw _
    | exact hs
    | exact h.raise _ _ hs

theorem scanEvent (h : Kept P)
    (ha : ∀ {s : State} p, s.pallets.length < Config.palletCapacity → P s → P (s.addPallet p))
    (k scan) (hs : P s) : P (Machine.scanEvent s k scan).1.s := by
  unfold Machine.scanEvent
  split
  · cases k
    · exact h.intakeKnown _ _ hs
    · exact h.laneKnown _ _ hs
    · exact h.loadKnown _ _ hs
    · exact h.reworkKnown _ hs
  · split
    · exact h.intakeNew ha _ hs
    · exact hs

/-- A scan keeps a property that events, the repeat list's entries and records made below the capacity
keep. -/
theorem takeScan (h : Kept P)
    (ha : ∀ {s : State} p, s.pallets.length < Config.palletCapacity → P s → P (s.addPallet p))
    (hr : ∀ {s : State} k n l, P s → P (s.enterRepeat k n l))
    {src kind scan} (ht : Machine.takeScan src kind scan s = .next t) (hs : P s) : P t := by
  unfold Machine.takeScan at ht
  dsimp only at ht
  repeat' split at ht
  all_goals first
    | (cases ht; exact hs)
    | (cases ht; exact h.sendVerdict _ _ hs)
    | (unfold finishScan at ht
       refine h.runEvent ?_ ht
       exact h.scanEvent ha _ _ (hr _ _ _ hs))

/-! ## Terminal frames -/

theorem returnAndFree (h : Kept P) (m) (hs : P s) : P (s.returnAndFree m) :=
  h.freeMover _ (h.giveBack _ hs)

theorem signOn (h : Kept P) (a m) (hs : P s) : P (s.signOn a m) := by
  have base := h.modMover m (fun r => { r with address := some a }) hs
  unfold State.signOn
  dsimp only
  split
  · exact h.returnAndFree _ base
  · exact h.returnAndFree _ base
  · exact base
  · exact h.freeMover _ base
  · exact h.freeMover _ base

theorem signOff (h : Kept P) (m) (hs : P s) : P (s.signOff m) := by
  unfold State.signOff
  split
  all_goals first
    | exact hs
    | exact h.idleMover _ _ hs
    | exact h.idleMover _ _ (h.giveBack _ hs)

theorem acceptMove (h : Kept P) (m n) (hs : P s) : P (s.acceptMove m n) := by
  unfold State.acceptMove
  dsimp only
  repeat' split
  all_goals first
    | exact h.expireMove _ (h.modMover _ _ (h.modPallet _ _ hs))
    | exact h.expireMove _ (h.modMover _ _ hs)
    | exact h.modMover _ _ (h.modPallet _ _ hs)
    | exact h.modMover _ _ hs

theorem acceptFrame (h : Kept P) (m n) (hs : P s) : P (s.acceptFrame m n) := by
  unfold State.acceptFrame
  repeat' split
  all_goals first
    | exact hs
    | exact h.acceptMove _ _ hs
    | exact h.sendDirective _ _ hs
    | exact h.freeMover _ (h.sendDirective _ _ hs)

theorem declineFrame (h : Kept P) (m n) (hs : P s) : P (s.declineFrame m n) := by
  unfold State.declineFrame
  repeat' split
  all_goals first | exact hs | exact h.returnAndFree _ hs | exact h.freeMover _ hs

theorem abandonFrame (h : Kept P) (m n) (hs : P s) : P (s.abandonFrame m n) := by
  unfold State.abandonFrame
  repeat' split
  all_goals first | exact hs | exact h.returnAndFree _ hs | exact h.freeMover _ hs

/-- A terminal frame keeps a property that events and its rule keep. -/
theorem takeTerminal (h : Kept P) {mover : Byte} {rule : Nat → State → State}
    (hr : ∀ m, P (rule m s)) (ht : Machine.takeTerminal mover rule s = .next t) (hs : P s) :
    P t := by
  unfold Machine.takeTerminal at ht
  dsimp only at ht
  split at ht
  · cases ht; exact hs
  · exact h.runEvent (hr _) ht

/-! ## Requests -/

/-- A request keeps a property that events and results keep and that its rule's outcome has. -/
theorem takeRequest (h : Kept P) {c : Instr} {rule : State → Taken} (hr : (rule s).All P)
    (ht : Machine.takeRequest c rule s = .next t) (hs : P s) : P t := by
  unfold Machine.takeRequest at ht
  dsimp only at ht
  split at ht
  · cases ht; exact hs
  · cases e : rule s <;> rw [e] at ht hr <;> dsimp only at ht
    · cases ht; exact h.giveResult _ _ _ hs
    · split at ht
      · cases ht; exact h.giveResult _ _ _ hr
      · cases ht; exact h.giveResult _ _ _ hs
    · refine h.runEvent ?_ ht
      exact hr
    · split at ht
      · refine h.runEvent ?_ ht
        exact hr
      · cases ht; exact h.giveResult _ _ _ hs

end Sys2Proof.Machine.Kept
end

