-- ==== Sys2Proof/Laws/Safe.lean ====
section
/-! SUPPORT. The parts of a safe state under the operations that write them: tables, banks, ports, the repeat list, frames in progress, and the primitive writes of an event. -/

namespace Sys2Proof.Machine

variable {s t : State}

/-! ## Tables -/

theorem Table.keysIn_put {α : Type} {t : Table α} {lo hi k : Nat} (h : Table.keysIn t lo hi) (v : α)
    (hk : lo ≤ k ∧ k ≤ hi) : Table.keysIn (t.put k v) lo hi := by
  refine ⟨Table.wf_put h.1 k v, fun e he => ?_⟩
  rcases Table.mem_put he with rfl | he
  · exact hk
  · exact h.2 e he

theorem Table.keysIn_adjust {α : Type} {t : Table α} {lo hi : Nat} (h : Table.keysIn t lo hi)
    (k : Nat) (f : α → α) : Table.keysIn (t.adjust k f) lo hi := by
  refine ⟨Table.wf_adjust h.1 k f, fun e he => ?_⟩
  obtain ⟨x, hx, hk⟩ := Table.key_adjust he
  rw [← hk]; exact h.2 x hx

theorem Table.keysIn_erase {α : Type} {t : Table α} {lo hi : Nat} (h : Table.keysIn t lo hi)
    (k : Nat) : Table.keysIn (t.erase k) lo hi :=
  ⟨Table.wf_erase h.1 k, fun e he => h.2 e (Table.mem_erase he)⟩

/-! ## Banks -/

theorem mem_insertZone {zs : List ZoneEntry} {x e : ZoneEntry} (h : e ∈ insertZone zs x) :
    e = x ∨ e ∈ zs := by
  induction zs with
  | nil => simpa [insertZone] using h
  | cons z zs ih =>
    unfold insertZone at h
    split at h
    · rcases List.mem_cons.1 h with rfl | h
      · exact .inr (by simp)
      · rcases ih h with rfl | h
        · exact .inl rfl
        · exact .inr (by simp [h])
    · simpa using h

theorem length_insertZone (zs : List ZoneEntry) (x : ZoneEntry) :
    (insertZone zs x).length = zs.length + 1 := by
  induction zs with
  | nil => rfl
  | cons e zs ih => unfold insertZone; split <;> simp [ih]

/-- An entry that meets no entry of an ordered list has its place in the order. -/
theorem apart_insertZone {zs : List ZoneEntry} {x : ZoneEntry} (hx : x.first ≤ x.last)
    (hr : ∀ e ∈ zs, e.first ≤ e.last) (ha : zs.Pairwise fun e x => e.last < x.first)
    (hm : ∀ e ∈ zs, e.meets x.first x.last = false) :
    (insertZone zs x).Pairwise fun e x => e.last < x.first := by
  induction zs with
  | nil => simp [insertZone]
  | cons e zs ih =>
    have he := hr e (by simp)
    have hme := hm e (by simp)
    simp only [ZoneEntry.meets, Bool.and_eq_false_iff, decide_eq_false_iff_not] at hme
    rw [List.pairwise_cons] at ha
    unfold insertZone
    split
    · rw [List.pairwise_cons]
      refine ⟨fun y hy => ?_, ih (fun e he => hr e (by simp [he])) ha.2
        (fun e he => hm e (by simp [he]))⟩
      rcases mem_insertZone hy with rfl | hy
      · omega
      · exact ha.1 y hy
    · rw [List.pairwise_cons, List.pairwise_cons]
      refine ⟨fun y hy => ?_, ha⟩
      rcases List.mem_cons.1 hy with rfl | hy
      · omega
      · have := ha.1 y hy
        omega

theorem Bank.within.insert {b : Bank} (h : b.within) {x : ZoneEntry} (hx : x.first ≤ x.last)
    (hm : b.zones.any (·.meets x.first x.last) = false)
    (hc : b.zones.length < Config.zoneCapacity) :
    ({ b with zones := insertZone b.zones x } : Bank).within := by
  refine ⟨by dsimp only; rw [length_insertZone]; omega, ?_, ?_, h.rows⟩
  · intro e he
    rcases mem_insertZone he with rfl | he
    · exact hx
    · exact h.ranges e he
  · exact apart_insertZone hx h.ranges h.apart (by simpa using hm)

theorem Bank.within.replace {b : Bank} (h : b.within) (x : ZoneEntry) :
    ({ b with zones := replaceZone b.zones x } : Bank).within := by
  have keep : ∀ e : ZoneEntry,
      (if (decide (e.first = x.first) && decide (e.last = x.last)) = true then x else e).first = e.first ∧
      (if (decide (e.first = x.first) && decide (e.last = x.last)) = true then x else e).last = e.last := by
    intro e
    split
    · simp_all
    · exact ⟨rfl, rfl⟩
  refine ⟨by simpa [replaceZone] using h.count, ?_, ?_, h.rows⟩
  · intro e he
    obtain ⟨y, hy, rfl⟩ := List.mem_map.1 he
    rw [(keep y).1, (keep y).2]
    exact h.ranges y hy
  · refine List.pairwise_map.2 (h.apart.imp fun {a b} hab => ?_)
    rw [(keep a).2, (keep b).1]
    exact hab

theorem Bank.within.filter {b : Bank} (h : b.within) (f : ZoneEntry → Bool) :
    ({ b with zones := b.zones.filter f } : Bank).within :=
  ⟨(List.length_filter_le _ _).trans h.count, fun e he => h.ranges e (List.mem_of_mem_filter he),
    h.apart.filter _, h.rows⟩

theorem Bank.within.empty : ({} : Bank).within :=
  ⟨by decide, by simp, by simp, rfl, by simp⟩

/-! ## Safe states -/

/-- The due frame's turn stands for a frame in progress. -/
theorem State.turn_lt_of_dueFrame {f : MgmtFrame} (h : s.dueFrame = some f) :
    s.turn < s.frames.length ∧ f ∈ s.frames := by
  unfold State.dueFrame at h
  exact ⟨(List.getElem?_eq_some_iff.1 h).1, List.mem_of_getElem? h⟩

namespace State.Safe

/-- A state that agrees with a safe one on the fields that `Safe` reads is safe. -/
theorem of (h : s.Safe) (hf : t.floor = s.floor) (hy : t.yard = s.yard)
    (hr : t.repeats = s.repeats) (h0 : t.bank0 = s.bank0) (h1 : t.bank1 = s.bank1)
    (hc : t.clock = s.clock) (hfr : t.frames = s.frames) (ht : t.turn = s.turn)
    (hp : t.pallets = s.pallets) (hk : t.trunks = s.trunks) (hl : t.classes = s.classes)
    (hb : t.bookingCounter = s.bookingCounter) (hm : t.lastMove = s.lastMove)
    (hu : t.urgent = s.urgent) (hn : t.normal = s.normal) :
    t.Safe := by
  constructor
  · rw [hf]; exact h.floor
  · rw [hy]; exact h.yard
  · rw [hf]; exact h.floorBusy
  · rw [hy]; exact h.yardBusy
  · rw [hr]; exact h.repeats
  · rw [h0]; exact h.bank0
  · rw [h1]; exact h.bank1
  · rw [hc]; exact h.clock
  · rw [hfr]; exact h.frames
  · rw [ht, hfr]; exact h.turn
  · rw [hfr]; exact h.left
  · rw [hp]; exact h.pallets
  · rw [hk]; exact h.trunks
  · rw [hl]; exact h.classes
  · rw [hb]; exact h.counter
  · rw [hm]; exact h.lastMove
  · exact ⟨hu ▸ h.rotation.1, hn ▸ h.rotation.2⟩

theorem withPort (h : s.Safe) (p : Port) {x : PortState} (hx : x.within)
    (hb : x.busyWhenQueued) : (s.setPort p x).Safe := by
  obtain ⟨a, b, c, d, e, f, g, i, j, k, l, m, n, o, u, v, w⟩ := h
  cases p
  · exact ⟨hx, b, hb, d, e, f, g, i, j, k, l, m, n, o, u, v, w⟩
  · exact ⟨a, hx, c, hb, e, f, g, i, j, k, l, m, n, o, u, v, w⟩

theorem portWithin (h : s.Safe) (p : Port) : (s.port p).within := by
  cases p
  · exact h.floor
  · exact h.yard

theorem portBusy (h : s.Safe) (p : Port) : (s.port p).busyWhenQueued := by
  cases p
  · exact h.floorBusy
  · exact h.yardBusy

theorem placeOwn (h : s.Safe) (p : Port) (d : Address) (b : OwnBody) : (s.placeOwn p d b).Safe := by
  rcases s.placeOwn_cases p d b with ⟨-, e⟩ | ⟨hl, e⟩ <;> rw [e]
  · exact h
  · exact h.withPort p (PortState.within_begin ⟨(h.portWithin p).1, by simp; omega⟩)
      (PortState.busy_begin _)

theorem placePass (h : s.Safe) (p : Port) (bs : List Byte) : (s.placePass p bs).Safe := by
  rcases s.placePass_cases p bs with ⟨-, e⟩ | ⟨hl, e⟩ <;> rw [e]
  · exact h
  · exact h.withPort p (PortState.within_begin ⟨by simp; omega, (h.portWithin p).2⟩)
      (PortState.busy_begin _)

theorem withFrames (h : s.Safe) {fs : List MgmtFrame} {n : Nat}
    (hc : fs.length ≤ Config.frameCapacity) (hn : n = 0 ∨ n < fs.length)
    (hl : ∀ f ∈ fs, f.within) : ({ s with frames := fs, turn := n } : State).Safe := by
  obtain ⟨a, b, c, d, e, f, g, i, -, -, -, m, n, o, u, v, w⟩ := h
  exact ⟨a, b, c, d, e, f, g, i, hc, hn, hl, m, n, o, u, v, w⟩

theorem withPallets (h : s.Safe) {x : Table Pallet} (hx : palletsWithin x) :
    ({ s with pallets := x } : State).Safe := by
  obtain ⟨a, b, c, d, e, f, g, i, j, k, l, -, n, o, u, v, w⟩ := h
  exact ⟨a, b, c, d, e, f, g, i, j, k, l, hx, n, o, u, v, w⟩

theorem withTrunks (h : s.Safe) {x : Table Trunk} (hx : Table.keysIn x 1 128) :
    ({ s with trunks := x } : State).Safe := by
  obtain ⟨a, b, c, d, e, f, g, i, j, k, l, m, -, o, u, v, w⟩ := h
  exact ⟨a, b, c, d, e, f, g, i, j, k, l, m, hx, o, u, v, w⟩

theorem withDoors (h : s.Safe) (x : Vector Door 48) : ({ s with doors := x } : State).Safe :=
  h.of rfl rfl rfl rfl rfl rfl rfl rfl rfl rfl rfl rfl rfl rfl rfl

theorem withClasses (h : s.Safe) {x : Table TrailerClass} (hx : Table.keysIn x 0 7) :
    ({ s with classes := x } : State).Safe := by
  obtain ⟨a, b, c, d, e, f, g, i, j, k, l, m, n, -, u, v, w⟩ := h
  exact ⟨a, b, c, d, e, f, g, i, j, k, l, m, n, hx, u, v, w⟩

theorem withClock (h : s.Safe) {x : Clock} (hx : x.within) : ({ s with clock := x } : State).Safe := by
  obtain ⟨a, b, c, d, e, f, g, -, j, k, l, m, n, o, u, v, w⟩ := h
  exact ⟨a, b, c, d, e, f, g, hx, j, k, l, m, n, o, u, v, w⟩

theorem bank (h : s.Safe) (n : BankNumber) : (s.bank n).within := by
  cases n
  · exact h.bank0
  · exact h.bank1

theorem setStandby (h : s.Safe) {b : Bank} (hb : b.within) : (s.setStandby b).Safe := by
  unfold State.setStandby
  obtain ⟨a, x, c, d, e, f, g, i, j, k, l, m, n, o, u, v, w⟩ := h
  split
  · exact ⟨a, x, c, d, e, f, hb, i, j, k, l, m, n, o, u, v, w⟩
  · exact ⟨a, x, c, d, e, hb, g, i, j, k, l, m, n, o, u, v, w⟩

theorem enterRepeat (h : s.Safe) (k : PlaceKind) (n : Nat) (l : Label) :
    (s.enterRepeat k n l).Safe := by
  obtain ⟨a, b, c, d, e, f, g, i, j, k', l', m, n', o, u, v, w⟩ := h
  refine ⟨a, b, c, d, ?_, f, g, i, j, k', l', m, n', o, u, v, w⟩
  have hc : Config.repeatCapacity = 64 := rfl
  have := List.length_filter_le (fun e => !RepeatEntry.names e k n l) s.repeats
  unfold State.enterRepeat
  simp only [List.length_append, List.length_cons, List.length_nil]
  split
  · simp only [List.length_drop]; omega
  · omega

theorem addPallet (p : Pallet) (hl : s.pallets.length < Config.palletCapacity) (h : s.Safe) :
    (s.addPallet p).Safe :=
  h.withPallets ⟨Table.wf_put h.pallets.1 _ _, by have := Table.length_put_le s.pallets p.label.toNat p; omega⟩

theorem dropDueFrame (h : s.Safe) : s.dropDueFrame.Safe := by
  unfold State.dropDueFrame
  refine h.withFrames ?_ ?_ fun f hf => h.left f (List.mem_of_mem_eraseIdx hf)
  · exact (List.length_eraseIdx_le _ _).trans h.frames
  · split
    · exact .inr ‹_›
    · exact .inl rfl

theorem giveResult (h : s.Safe) (due : Bool) (r : Result) (x : Option Record) :
    (s.giveResult due r x).Safe := by
  have h' : State.Safe { s with answer := some { result := r, record := x } } :=
    h.of rfl rfl rfl rfl rfl rfl rfl rfl rfl rfl rfl rfl rfl rfl rfl
  unfold State.giveResult
  dsimp only
  split
  · rename_i f hf
    have hm := State.turn_lt_of_dueFrame hf
    split
    · exact (h'.dropDueFrame).placeOwn _ _ _
    · rename_i hne
      refine h'.withFrames (by simpa using h.frames) ?_ fun g hg => ?_
      · unfold turnAfter
        split
        · exact .inr (by simpa)
        · exact .inl rfl
      · rcases List.mem_or_eq_of_mem_set hg with hg | rfl
        · exact h.left g hg
        · have hw := h.left f hm.2
          have hz : ((f.give r x).left = [] ∨ (f.give r x).left = f.left.drop 1) := by
            unfold MgmtFrame.give
            dsimp only
            split <;> simp
          rcases hz with hz | hz
          · simp [hz] at hne
          · have : f.left.drop 1 ≠ [] := by simpa [hz] using hne
            have := List.length_pos_iff.2 this
            unfold MgmtFrame.within at *
            rw [hz]
            simp only [List.length_drop] at *
            omega
  · exact h'

theorem withCounter (h : s.Safe) :
    ({ s with bookingCounter := sequenceAfter s.bookingCounter } : State).Safe := by
  have hc := h.counter
  obtain ⟨a, b, c, d, e, f, g, i, j, k, l, m, n, o, -, v, w⟩ := h
  refine ⟨a, b, c, d, e, f, g, i, j, k, l, m, n, o, ?_, v, w⟩
  have : Config.lastSequence = 4294967295 := rfl
  dsimp only
  unfold sequenceAfter
  split <;> omega

theorem freeMoveNumber_le (live : List Nat) (tries n : Nat) :
    freeMoveNumber live tries n ≤ Config.lastMoveNumber := by
  have one : ∀ n, moveNumberAfter n ≤ Config.lastMoveNumber := by
    intro n
    have : Config.lastMoveNumber = 65535 := rfl
    unfold moveNumberAfter
    split <;> omega
  induction tries generalizing n with
  | zero => exact one n
  | succ k ih =>
    unfold freeMoveNumber
    dsimp only
    split
    · exact ih _
    · exact one n

theorem withLastMove (h : s.Safe) (live : List Nat) (tries : Nat) :
    ({ s with lastMove := freeMoveNumber live tries s.lastMove } : State).Safe := by
  obtain ⟨a, b, c, d, e, f, g, i, j, k, l, m, n, o, u, -, w⟩ := h
  exact ⟨a, b, c, d, e, f, g, i, j, k, l, m, n, o, u, freeMoveNumber_le _ _ _, w⟩

/-- A queue number goes to the tail of a list that holds each of them once. -/
theorem toTail_perm {q : Nat} {qs : List Nat} (h : qs.Perm (List.range 49)) (hq : q < 49) :
    (toTail q qs).Perm (List.range 49) := by
  have hn : qs.Nodup := h.nodup_iff.2 List.nodup_range
  have hm : q ∈ qs := h.mem_iff.2 (List.mem_range.2 hq)
  refine List.Perm.trans ?_ h
  unfold toTail
  have : qs.filter (fun x => decide (x ≠ q)) = qs.erase q := by
    rw [hn.erase_eq_filter]; exact List.filter_congr fun x _ => by simp [bne]; rfl
  rw [this]
  exact (List.perm_append_comm.trans (by simpa using (List.perm_cons_erase hm).symm))

theorem countBurst (h : s.Safe) (q : Nat) (hq : q ∈ s.urgent ∨ q ∈ s.normal) :
    (s.countBurst q).Safe := by
  have hlt : q < 49 := by
    rcases hq with hq | hq
    · exact List.mem_range.1 (h.rotation.1.mem_iff.1 hq)
    · exact List.mem_range.1 (h.rotation.2.mem_iff.1 hq)
  obtain ⟨a, b, c, d, e, f, g, i, j, k, l, m, n, o, u, v, w⟩ := h
  unfold State.countBurst
  dsimp only
  split
  · exact ⟨a, b, c, d, e, f, g, i, j, k, l, m, n, o, u, v, toTail_perm w.1 hlt, toTail_perm w.2 hlt⟩
  · exact ⟨a, b, c, d, e, f, g, i, j, k, l, m, n, o, u, v, w⟩

/-- The primitive writes of an event keep a state safe. -/
theorem kept : Kept State.Safe where
  modPallet _ _ h := h.withPallets ⟨Table.wf_adjust h.pallets.1 _ _, by
    rw [Table.length_adjust]; exact h.pallets.2⟩
  dropPallet _ h := h.withPallets ⟨Table.wf_erase h.pallets.1 _,
    (Table.length_erase_le _ _).trans h.pallets.2⟩
  modTrunk _ _ _ h := h.withTrunks (Table.keysIn_adjust h.trunks _ _)
  removeTrunk t h := by
    unfold State.removeTrunk
    split
    · exact h.withTrunks (Table.keysIn_erase h.trunks _)
    · exact h
  counter h := h.withCounter
  claimUp _ _ h := h.withDoors _
  claimDown _ h := h.withDoors _
  hold _ _ h := h.withDoors _
  handOver t d _ h := by
    have base (f : Trunk → Trunk) (g : Door → Door) : ((_ : State).modTrunk t f |>.modDoor d g).Safe :=
      (h.withTrunks (Table.keysIn_adjust h.trunks t f)).withDoors _
    unfold State.handOver
    dsimp only
    split
    · exact (base _ _).withTrunks (Table.keysIn_adjust (base _ _).trunks _ _)
    · exact base _ _
  unplaceNext _ _ _ h := (h.withTrunks (Table.keysIn_adjust h.trunks _ _)).withDoors _
  movers _ h := h.of rfl rfl rfl rfl rfl rfl rfl rfl rfl rfl rfl rfl rfl rfl rfl
  freeList _ h := h.of rfl rfl rfl rfl rfl rfl rfl rfl rfl rfl rfl rfl rfl rfl rfl
  queues _ h := h.of rfl rfl rfl rfl rfl rfl rfl rfl rfl rfl rfl rfl rfl rfl rfl
  lastMove live n h := h.withLastMove live n
  countBurst q hq h := h.countBurst q hq
  modCondition _ _ _ h := h.of rfl rfl rfl rfl rfl rfl rfl rfl rfl rfl rfl rfl rfl rfl rfl
  placeOwn p d b h := h.placeOwn p d b
  giveResult due r x h := h.giveResult due r x

end State.Safe

end Sys2Proof.Machine
end

