-- ==== Sys2Proof/Laws/Agree.lean ====
section
/-! SUPPORT. Doors and trunks that agree: every primitive write of an event keeps the agreement. -/

namespace Sys2Proof.Machine

variable {s t : State}

/-- Where trunk `k` is placed. -/
abbrev State.placed (s : State) (k : Nat) : Option Placement := (s.trunk? k).map Trunk.placement

namespace State.DoorsAgree

/-- A state that agrees with an agreeing one on doors and placements agrees. -/
theorem of (h : s.DoorsAgree) (hd : ∀ d, t.door d = s.door d) (hk : ∀ k, t.placed k = s.placed k) :
    t.DoorsAgree where
  claims d := by rw [hd]; exact h.claims d
  active d k := by rw [hd]; exact (h.active d k).trans (iff_of_eq (congrArg (· = _) (hk k).symm))
  next d k := by rw [hd]; exact (h.next d k).trans (iff_of_eq (congrArg (· = _) (hk k).symm))
  pending d := by rw [hd]; exact h.pending d

/-- The same with claims that stand within the slots. -/
theorem ofClaims (h : s.DoorsAgree) (hc : ∀ d, (t.door d).claims ≤ (t.door d).slots)
    (hd : ∀ d, (t.door d).active = (s.door d).active ∧ (t.door d).next = (s.door d).next ∧
      (t.door d).nextPending = (s.door d).nextPending)
    (hk : ∀ k, t.placed k = s.placed k) : t.DoorsAgree where
  claims := hc
  active d k := by rw [(hd d).1]; exact (h.active d k).trans (iff_of_eq (congrArg (· = _) (hk k).symm))
  next d k := by rw [(hd d).2.1]; exact (h.next d k).trans (iff_of_eq (congrArg (· = _) (hk k).symm))
  pending d := by rw [(hd d).2.2, (hd d).2.1]; exact h.pending d

end State.DoorsAgree

/-- Where a trunk is placed after a change of trunk `t` that sets its placement. -/
theorem State.placed_modTrunk (s : State) (t k : Nat) {f : Trunk → Trunk} {p : Placement}
    (hf : ∀ r, (f r).placement = p) :
    (s.modTrunk t f).placed k = if k = t then (s.placed t).map fun _ => p else s.placed k := by
  unfold State.placed
  rw [State.trunk?_modTrunk]
  split
  · subst k; cases s.trunk? t <;> simp [hf]
  · rfl

theorem State.placed_modTrunk_of (s : State) (t k : Nat) {f : Trunk → Trunk}
    (hf : ∀ r : Trunk, (f r).placement = r.placement) : (s.modTrunk t f).placed k = s.placed k := by
  unfold State.placed
  rw [State.trunk?_modTrunk]
  split
  · subst k; cases s.trunk? t <;> simp [hf]
  · rfl

/-- A numbered door with a trunk is one of the 48. -/
theorem State.door_range {d : Nat} (h : (s.door d).active ≠ none ∨ (s.door d).next ≠ none) :
    1 ≤ d ∧ d ≤ 48 := by
  by_contra hc
  have : s.door d = {} := by
    unfold State.door nth Vector.getD
    split
    · rfl
    · exact Array.getD_eq_getD_getElem? .. |>.trans (by
        rw [Array.getElem?_eq_none (by simp; omega)]; rfl)
  simp [this] at h

/-- The state an event keeps: the trunk table in its one form, doors and trunks that agree. -/
def State.Agreed (s : State) : Prop := s.trunks.wf = true ∧ s.DoorsAgree

namespace State.Agreed

theorem same (h : s.Agreed) (hd : t.doors = s.doors) (hk : t.trunks = s.trunks) : t.Agreed :=
  ⟨hk ▸ h.1, h.2.of (fun d => by unfold State.door; rw [hd]) (fun k => by
    unfold State.placed State.trunk?; rw [hk])⟩

theorem modDoor (h : s.Agreed) (d : Nat) (f : Door → Door)
    (hc : (s.door d).claims ≤ (s.door d).slots → (f (s.door d)).claims ≤ (f (s.door d)).slots)
    (hd : (f (s.door d)).active = (s.door d).active ∧ (f (s.door d)).next = (s.door d).next ∧
      (f (s.door d)).nextPending = (s.door d).nextPending) : (s.modDoor d f).Agreed := by
  refine ⟨h.1, h.2.ofClaims (fun e => ?_) (fun e => ?_) fun _ => rfl⟩
  · rcases s.door_modDoor_cases d e f with x | ⟨-, x⟩ <;> rw [x]
    · exact h.2.claims e
    · exact hc (h.2.claims d)
  · rcases s.door_modDoor_cases d e f with x | ⟨hx, x⟩ <;> rw [x]
    · exact ⟨rfl, rfl, rfl⟩
    · subst hx; exact hd

/-- Trunk `t` leaves door `d`, where it is placed, and the door is left to `u`, its next trunk or none. -/
theorem leaves (h : s.Agreed) {t' : State} {t d : Nat} (hp : s.placed t = some (.active d))
    (hw : t'.trunks.wf = true)
    (hd : ∀ e, t'.door e = if e = d then { s.door d with
      active := (s.door d).next, next := none, nextPending := false, hold := false } else s.door e)
    (hk : ∀ k, t'.placed k = if (s.door d).next = some k then some (.active d)
      else if k = t then some .unplaced else s.placed k) : t'.Agreed := by
  have h1 := h.2.active
  have h2 := h.2.next
  refine ⟨hw, ⟨fun e => ?_, fun e k => ?_, fun e k => ?_, fun e => ?_⟩⟩
  · have := h.2.claims e
    rw [hd]; grind
  · have a := h1 e k; have b := h1 d k; have c := h2 d k; have e1 := h1 d t; have e2 := h2 e k
    change _ ↔ t'.placed k = _
    rw [hd, hk]
    simp only [State.placed] at *
    grind
  · have a := h1 e k; have b := h1 d k; have c := h2 d k; have e1 := h1 d t; have e2 := h2 e k
    change _ ↔ t'.placed k = _
    rw [hd, hk]
    simp only [State.placed] at *
    grind
  · have := h.2.pending e
    rw [hd]; grind

/-- Trunk `t` leaves door `d`, whose next trunk it is. -/
theorem leavesNext (h : s.Agreed) {t' : State} {t d : Nat} (hp : s.placed t = some (.next d))
    (hw : t'.trunks.wf = true)
    (hd : ∀ e, t'.door e = if e = d then { s.door d with next := none, nextPending := false }
      else s.door e)
    (hk : ∀ k, t'.placed k = if k = t then some .unplaced else s.placed k) : t'.Agreed := by
  have h1 := h.2.active
  have h2 := h.2.next
  refine ⟨hw, ⟨fun e => ?_, fun e k => ?_, fun e k => ?_, fun e => ?_⟩⟩
  · have := h.2.claims e
    rw [hd]; grind
  · have a := h1 e k; have b := h1 d k; have e1 := h2 d t
    change _ ↔ t'.placed k = _
    rw [hd, hk]
    simp only [State.placed] at *
    grind
  · have b := h2 d k; have e1 := h2 d t; have e2 := h2 e k
    change _ ↔ t'.placed k = _
    rw [hd, hk]
    simp only [State.placed] at *
    grind
  · have := h.2.pending e
    rw [hd]; grind

/-- The primitive writes of an event keep the agreement. -/
theorem kept : Kept State.Agreed where
  modPallet _ _ h := h.same rfl rfl
  dropPallet _ h := h.same rfl rfl
  modTrunk t f hf h := ⟨Table.wf_adjust h.1 _ _, h.2.of (fun _ => rfl) fun k =>
    State.placed_modTrunk_of _ t k hf⟩
  removeTrunk {s} t h := by
    unfold State.removeTrunk
    split
    · rename_i hp
      have gone : (s.dropTrunk t).placed t = none := by
        unfold State.placed State.trunk? State.dropTrunk
        dsimp only
        rw [Table.get?_erase_self h.1]; rfl
      have other (k : Nat) (hk : k ≠ t) : (s.dropTrunk t).placed k = s.placed k := by
        unfold State.placed State.trunk? State.dropTrunk
        dsimp only
        rw [Table.get?_erase_ne _ hk]
      have iff (p : Placement) (hp' : p ≠ .unplaced) (k : Nat) :
          s.placed k = some p ↔ (s.dropTrunk t).placed k = some p := by
        by_cases hk : k = t
        · subst hk
          rw [gone, show s.placed k = _ from hp]
          simp [Ne.symm hp']
        · rw [other k hk]
      exact ⟨Table.wf_erase h.1 _,
        { claims := h.2.claims
          active := fun d k => (h.2.active d k).trans (iff (.active d) nofun k)
          next := fun d k => (h.2.next d k).trans (iff (.next d) nofun k)
          pending := h.2.pending }⟩
    · exact h
  counter h := h.same rfl rfl
  claimUp d hr h := h.modDoor d _ (fun _ => hr) ⟨rfl, rfl, rfl⟩
  claimDown d h := h.modDoor d _ (fun hc => (Nat.sub_le _ _).trans hc) ⟨rfl, rfl, rfl⟩
  hold d v h := h.modDoor d _ id ⟨rfl, rfl, rfl⟩
  handOver {s} t d hp h := by
    have ht : (s.door d).active = some t := (h.2.active d t).2 hp
    have hd := s.door_range (d := d) (.inl (by simp [ht]))
    unfold State.handOver
    dsimp only
    have hk (k) := State.placed_modTrunk s t k (f := fun r => { r with placement := .unplaced })
      fun _ => rfl
    cases hn : (s.door d).next with
    | none =>
      refine h.leaves hp (Table.wf_adjust h.1 _ _) (fun e => ?_) fun k => ?_
      · rw [State.door_modDoor _ _ _ _ hd.1 hd.2, hn]; rfl
      · rw [hn]; exact (hk k).trans (by rw [show s.placed t = _ from hp]; rfl)
    | some u =>
      have hu : s.placed u = some (.next d) := (h.2.next d u).1 hn
      refine h.leaves hp (Table.wf_adjust (Table.wf_adjust h.1 _ _) _ _) (fun e => ?_) fun k => ?_
      · rw [hn]
        exact Eq.trans (by rfl) (State.door_modDoor (s.modTrunk t fun r => { r with placement := .unplaced })
          d e (fun x => { x with active := some u, next := none, nextPending := false, hold := false })
          hd.1 hd.2)
      · refine (State.placed_modTrunk _ u k (p := .active d) fun _ => rfl).trans ?_
        have hp' : s.placed t = _ := hp
        have e1 := hk k
        have e2 := hk u
        rw [hn]
        change (if k = u then ((s.modTrunk t _).placed u).map _ else (s.modTrunk t _).placed k) = _
        rw [e1, e2]
        grind
  unplaceNext {s} t d hp h := by
    have ht : (s.door d).next = some t := (h.2.next d t).2 hp
    have hd := s.door_range (d := d) (.inr (by simp [ht]))
    refine h.leavesNext hp (Table.wf_adjust h.1 _ _) (fun e => ?_) fun k => ?_
    · exact (State.door_modDoor _ _ _ _ hd.1 hd.2)
    · refine (State.placed_modTrunk s t k (p := .unplaced) fun _ => rfl).trans ?_
      rw [show s.placed t = _ from hp]; rfl
  movers _ h := h.same rfl rfl
  freeList _ h := h.same rfl rfl
  queues _ h := h.same rfl rfl
  lastMove _ _ h := h.same rfl rfl
  countBurst q _ h := by
    unfold State.countBurst
    dsimp only
    split <;> exact h.same rfl rfl
  modCondition _ _ _ h := h.same rfl rfl
  placeOwn {s} p d b h := by
    rcases s.placeOwn_cases p d b with ⟨-, e⟩ | ⟨-, e⟩ <;> rw [e]
    · exact h
    · cases p <;> exact h.same rfl rfl
  giveResult {s} due r x h := by
    have place (u : State) (p d b) (hu : u.Agreed) : (u.placeOwn p d b).Agreed := by
      rcases u.placeOwn_cases p d b with ⟨-, e⟩ | ⟨-, e⟩ <;> rw [e]
      · exact hu
      · cases p <;> exact hu.same rfl rfl
    unfold State.giveResult
    dsimp only
    repeat' split
    all_goals first
      | exact place _ _ _ _ (h.same rfl rfl)
      | exact h.same rfl rfl

end State.Agreed

end Sys2Proof.Machine
end

