-- ==== Sys2Proof/Laws/Completes.lean ====
section
/-! SUPPORT. How the shared operations that take a scan, a terminal frame or a request complete, and the reports that a second report of the same level leaves alone. -/

namespace Sys2Proof.Machine

variable {s : State}

/-! ## Reports -/

/-- The raw value after a change of it. -/
theorem State.raw_changeRaw (s : State) (c : CondName) (v : Bool) (x : Option Subject) :
    ((s.changeRaw c v x).condition c).raw = v := by
  unfold State.changeRaw State.sendNotices State.noticeTo
  have h (u : State) (a : Address) (b : OwnBody) (k : CondName) :
      (u.placeOwn .yard a b).condition k = u.condition k := by
    unfold State.placeOwn; dsimp only; split
    · cases u; rfl
    · rfl
  dsimp only
  split
  · repeat' split
    all_goals simp only [h, State.condition_modCondition, if_pos]
  · simp only [State.condition_modCondition, if_pos]

/-- The raw value after a level report. -/
theorem State.raw_report (s : State) (c : CondName) (x : Option Subject) :
    ((s.report c x).condition c).raw = x.isSome := by
  unfold State.report
  split
  · assumption
  · exact s.raw_changeRaw c _ x

/-- A report of the level that already stands changes nothing. -/
theorem State.report_of_raw {c : CondName} {x : Option Subject}
    (h : (s.condition c).raw = x.isSome) : s.report c x = s := if_pos h

/-- A raise of a condition that is already true changes nothing. -/
theorem State.raise_of_raw {c : CondName} {x : Subject} (h : (s.condition c).raw = true) :
    s.raise c x = s := if_pos h

/-- With no mover in the free list a grant attempt changes nothing. -/
theorem State.grantAttempt_of_nil (h : s.freeList = []) : s.grantAttempt = s := by
  unfold State.grantAttempt; rw [h]; rfl

/-! ## Requests -/

/-- A request whose rule refuses it. -/
theorem takeRequest_refused {c : Instr} {rule : State → Taken} {r : Result} (h : s.restart = none)
    (hr : rule s = .refused r) : takeRequest c rule s = .next (s.giveResult (s.isDue c) r none) := by
  unfold takeRequest; simp [State.restartPending, h, hr]

/-- A request that is DONE at once and returns no record. -/
theorem takeRequest_done {c : Instr} {rule : State → Taken} {t : State} (h : s.restart = none)
    (hr : rule s = .done t none) :
    takeRequest c rule s = .next (t.giveResult (s.isDue c) .done none) := by
  unfold takeRequest; simp [State.restartPending, h, hr]

/-- A request that is DONE at once with a record that fits its reply. -/
theorem takeRequest_record {c : Instr} {rule : State → Taken} {t : State} {x : Record}
    (h : s.takes c x.size) (hr : rule s = .done t (some x)) :
    takeRequest c rule s = .next (t.giveResult (s.isDue c) .done (some x)) := by
  unfold takeRequest; simp [State.restartPending, h.1, hr, h.2]

/-- A request that is DONE by an event with nothing but its closing to do. -/
theorem takeRequest_closing {c : Instr} {rule : State → Taken} {e : Ev} (h : s.restart = none)
    (hr : rule s = .event e) (hw : e.work = closing) :
    takeRequest c rule s = .next (e.s.closeEvent.giveResult (s.isDue c) .done none) := by
  unfold takeRequest
  simp only [State.restartPending, h, hr, Option.isSome_none, Bool.false_eq_true, if_false]
  rw [runEvent_closing_then _ (.answer (s.isDue c)) (by rw [hw]) fun e he => by
    simpa [Ev.perform] using he]
  simp only [Ev.perform, State.closeEvent]

/-! ## Scans and terminal frames -/

/-- A scan that passes its checks is handed on by its place kind, clamped, after its repeat entry. -/
theorem takeScan_passes {src : Address} {kind : Byte} {scan : ScanFields} {k : PlaceKind}
    (hk : placeKindOf kind = some k) (h : s.ScanPasses k scan) :
    takeScan src kind scan s = finishScan src kind (clampScan scan)
      (scanEvent (s.enterRepeat k scan.number.toNat scan.label) k (clampScan scan)) := by
  unfold takeScan
  simp only [State.restartPending, h.restart, hk, h.place, h.digits, Option.isSome_none,
    Bool.false_eq_true, if_false, Bool.not_true]
  rw [show (clampScan scan).label = scan.label from rfl, h.fresh]
  rfl

/-- A scan's event with no work of its own: it closes, then the verdict is sent. -/
theorem finishScan_closing {src : Address} {kind : Byte} {scan : ScanFields}
    {x : Ev × VerdictResult} (hw : x.1.work = []) :
    finishScan src kind scan x = .next (x.1.s.closeEvent.sendVerdict src
      { x.1.s.closeEvent.verdictOf kind scan x.2 with
        candidate := x.1.candidate, position := x.1.position
        kingpin := x.1.kingpin, axle := x.1.axle }) := by
  unfold finishScan
  rw [runEvent_closing_then _ (.verdict src kind scan x.2) (by rw [hw]; rfl) fun e he => by
    simpa [Ev.perform, Ev.verdict] using he]
  simp only [Ev.perform, Ev.verdict, State.closeEvent]

/-- A terminal frame of a mover number from 1 to 32. -/
theorem takeTerminal_closing {mover : Byte} {rule : Nat → State → State} (h : s.restart = none)
    (hm : isMoverNumber mover.toNat = true) :
    takeTerminal mover rule s = .next (rule mover.toNat s).closeEvent := by
  unfold takeTerminal
  simp only [State.restartPending, h, hm, Option.isSome_none, Bool.not_true, Bool.or_self,
    Bool.false_eq_true, if_false]
  rw [runEvent_closing _ rfl]
  simp only [State.closeEvent]

end Sys2Proof.Machine
end

