-- ==== Sys2Proof/Laws/HandOn.lean ====
section
/-! SUPPORT. What the hand-ons of an event come to when nothing follows from them: a pass that hands on only its report, and a release attempt that finds no candidate. -/

namespace Sys2Proof.Machine

variable {e : Ev} {s : State}

/-- A pass that hands on only its report, at a door whose passes are not left to a hand-over. -/
theorem drain_pass_alone (n : Nat) {d : Nat} {served : Option Nat} {ws : List Work}
    (hw : e.work = .pass d served :: ws) (hd : e.deferDoor ≠ some d) (h : e.s.passAlone d served) :
    drain (n + 2) e = drain n { e with work := ws, s := e.s.afterPass d } := by
  have hp : (({ e with work := ws } : Ev).pass d served) =
      { e with work := .lanePressure :: ws, s := (e.s.grantPass d).state } := by
    unfold Ev.pass
    simp only [hd, if_false, h.1, List.map_nil, List.append_nil]
    split
    · rename_i t ht
      cases hs : (e.s.grantPass d).staged
      · rfl
      · have := h.2 hs
        rw [ht] at this
        simp only [← this, ne_eq, not_true_eq_false, decide_false, Bool.and_false,
          Bool.false_eq_true, if_false]
        rfl
    · rfl
  rw [drain_of_cons (n + 1) hw]
  show drain (n + 1) (({ e with work := ws } : Ev).pass d served) = _
  rw [hp, drain_of_cons n rfl]
  rfl

/-- Passes at the doors of a list, each of which hands on only its report. -/
theorem drain_passes_alone (n : Nat) {served : Option Nat} (ds : List Nat) {ws : List Work}
    (hw : e.work = ds.map (fun d => .pass d served) ++ ws) (hd : e.deferDoor = none)
    (h : e.s.passesAlone served ds) :
    drain (n + 2 * ds.length) e = drain n { e with work := ws, s := e.s.afterPasses ds } := by
  induction ds generalizing e n with
  | nil =>
    have : e = { e with work := ws } := by rw [← (by simpa using hw : e.work = ws)]
    rw [this]
    rfl
  | cons d ds ih =>
    rw [show n + 2 * (d :: ds).length = (n + 2 * ds.length) + 2 by simp; omega,
      drain_pass_alone _ (by simpa using hw) (by simp [hd]) h.1,
      ih n (e := { e with work := ds.map (fun d => .pass d served) ++ ws, s := e.s.afterPass d })
        rfl hd h.2]
    rfl

/-- The bookings of a window that a walk has yet to take (R125). -/
def Trunk.left (r : Trunk) (visited : List Nat) : Nat :=
  (r.window.reverse.takeWhile fun b => !visited.contains b.seq).length

/-- The walk takes a booking of the window, and fewer are left after it. -/
theorem Trunk.left_lt {r : Trunk} {visited : List Nat} {b : Booking}
    (h : r.nextBooking visited = some b) :
    b ∈ r.window ∧ r.left (visited ++ [b.seq]) < r.left visited := by
  unfold Trunk.nextBooking at h
  unfold Trunk.left
  obtain ⟨xs, hx⟩ := List.getLast?_eq_some_iff.1 h
  have hm : b ∈ r.window.reverse.takeWhile fun b => !visited.contains b.seq := by
    rw [hx]; simp
  refine ⟨List.mem_reverse.1 (List.takeWhile_subset _ hm), ?_⟩
  generalize r.window.reverse = w at *
  have key : (w.takeWhile fun x => !(visited ++ [b.seq]).contains x.seq) =
      (w.takeWhile fun x => !visited.contains x.seq).takeWhile fun x => !decide (x.seq = b.seq) := by
    rw [List.takeWhile_takeWhile]
    congr 1
    funext x
    simp only [List.contains_append, Bool.not_or, List.contains_cons, List.contains_nil,
      Bool.or_false, Bool.decide_and, Bool.decide_eq_true]
    by_cases hq : x.seq = b.seq <;> simp [hq]
  rw [key, hx]
  have : (xs ++ [b]).takeWhile (fun x => !decide (x.seq = b.seq)) ≠ xs ++ [b] := by
    intro heq
    have hall := List.takeWhile_eq_self_iff.1 heq b (by simp)
    simp at hall
  have hp := List.takeWhile_prefix (l := xs ++ [b]) (fun x => !decide (x.seq = b.seq))
  rcases Nat.lt_or_ge ((xs ++ [b]).takeWhile fun x => !decide (x.seq = b.seq)).length
      (xs ++ [b]).length with hlt | hge
  · exact hlt
  · exact absurd (hp.eq_of_length_le hge) this

/-- A walk that has released nothing and met no failed balance test, over bookings none of which is a
candidate, ends with the state as it was. -/
theorem drain_walk_idle (n : Nat) {w : Walk} {ws : List Work} {r : Trunk} {t : State}
    (hw : e.work = .walk w :: ws) (hr : e.s.trunk? w.trunk = some r)
    (hc : ∀ b ∈ r.window, e.s.isCandidate r w.door b = false)
    (hm : w.met = false) (hh : w.holdChanged = false) (hl : r.loadingDrop = w.start)
    (h : drain n { e with work := .attemptDone w.trunk :: ws } = some t) :
    drain (n + r.left w.visited + 1) e = some t := by
  have ends : ∀ e' : Ev, e'.s = e.s → ∀ w' : Walk, w'.trunk = w.trunk → w'.met = false →
      w'.holdChanged = false → w'.start = w.start →
      e'.endWalk w' = e'.push [.attemptDone w.trunk] := by
    intro e' hs w' h1 h2 h3 h4
    unfold Ev.endWalk
    rw [h1, h2, h3, h4, hs, hr]
    simp [hl, ← hs]
  generalize hk : r.left w.visited = k
  induction k using Nat.strong_induction_on generalizing e w with
  | _ k ih =>
    rw [show n + k + 1 = (n + k) + 1 from rfl, drain_of_cons (n + k) hw]
    show drain (n + k) (({ e with work := ws } : Ev).walk w) = some t
    have fin : drain (n + k) (({ e with work := ws } : Ev).endWalk w) = some t := by
      rw [ends { e with work := ws } rfl w rfl hm hh rfl]
      exact drain_mono h (by omega)
    unfold Ev.walk
    simp only [hr]
    split
    · exact fin
    · split
      · exact fin
      · rename_i b hb
        have hlt := r.left_lt hb
        have hcb := hc b hlt.1
        have hvis : ({ w with visited := w.visited ++ [b.seq] } : Walk).visited =
          w.visited ++ [b.seq] := rfl
        simp only [hcb, Bool.false_eq_true, if_false]
        have := ih _ (hk ▸ hlt.2)
          (e := (({ e with work := ws } : Ev).push [.walk { w with visited := w.visited ++ [b.seq] }]))
          (w := { w with visited := w.visited ++ [b.seq] }) rfl hr hc hm hh hl h
          (by intro e' hs w' h1; exact ends e' hs w' h1) rfl
        exact drain_mono this (by rw [hvis]; have := hlt.2; omega)

/-- A release attempt that finds nothing to release leaves the state as it was. -/
theorem drain_attempt_ends {t : Nat} (n : Nat) {ws : List Work} {u : State}
    (hw : e.work = .attempt t :: ws) (hrun : e.running = []) (hag : e.again = [])
    (hd : e.deferDoor = none) (h : e.s.attemptEnds t) (hu : drain n { e with work := ws } = some u) :
    drain (n + 131) e = some u := by
  obtain ⟨s, work, scanned, candidate, position, kingpin, axle, forced, running, again, door, asked⟩ := e
  dsimp only at hw hrun hag hd h hu
  subst hrun hag hd hw
  rw [show n + 131 = (n + 130) + 1 from rfl, drain_of_cons (n + 130) rfl]
  show drain (n + 130) (Ev.attempt _ t) = some u
  unfold Ev.attempt
  simp only [List.contains_nil, Bool.false_eq_true, if_false]
  split
  · exact drain_mono hu (Nat.le_add_right n 130)
  · rename_i r hr
    split
    · exact drain_mono hu (Nat.le_add_right n 130)
    · rename_i d hda
      have hp : r.placement = .active d := by
        unfold Trunk.activeDoor? at hda
        split at hda
        · rename_i hp; rw [hp]; simpa using hda
        · cases hda
      simp only [reduceCtorEq, if_false]
      split
      · rename_i hg
        rcases h r d hr hp with h | h | ⟨hlen, hc⟩
        · simp [h] at hg
        · simp at hg; omega
        · have hk : r.left [] ≤ 128 := by
            unfold Trunk.left
            exact (List.takeWhile_prefix _).length_le.trans (by simpa using hlen)
          refine drain_mono (drain_walk_idle (n + 1) (ws := ws)
            (w := { trunk := t, door := d, forced := false, start := r.loadingDrop })
            rfl hr hc rfl rfl rfl ?_) (by dsimp only; omega)
          rw [drain_of_cons n rfl]
          simpa [Ev.perform, Ev.attemptDone, Ev.push] using hu
      · exact drain_mono hu (Nat.le_add_right n 130)

end Sys2Proof.Machine
end

