-- ==== Sys2Proof/Tests/Slice0.lean ====
section
/-! SUPPORT. Tests: ill-formed commands that WellFormed refuses, worked figures of the spec, and for each statement with hypotheses a state and operands that meet them, clause by clause. -/

namespace Sys2Proof.Tests

open Sys2Proof.Machine

/-! ## Small states -/

def src : Address := 0x020000000002

/-- A label whose check digit is right (section 1.1). -/
def good : Label := 0x047003159269

def scan (n : Byte) (kg : BitVec 16) : ScanFields :=
  { number := n, label := good, zone := 0x384120, cls := 0, type := 0, kg := kg }

/-- A pallet on apron 1, of FULL type. -/
def pallet (st : PalletState) : Pallet :=
  { label := good, zone := 0x384120, cls := .standard, type := .full, quarters := 4, typeLimit := 1200
    measured := 400, bookingKg := 400, intakeDoor := 1, intakeTime := 0, depot := some 42
    state := st, location := .apron 1 }

def move (st : MoveState) : Move :=
  { number := 7, kind := .put, source := .apron 1, destination := .lane 12, queue := 12, state := st }

/-- The state after a pin reset with one pallet record. -/
def withPallet (p : Pallet) : State := { State.reset with pallets := [(good.toNat, p)] }

/-- Trailer class 3 of section 7.5. -/
def class3 : TrailerClass :=
  { rows := 10, pitch := 120, front := 40, axle := 900, kingpinTare := 2000, axleTare := 3000
    kingpinLimit := 6500, axleLimit := 12000, payload := 12000 }

def trunk17 : Trunk := { dropA := 42, dropB := none, cls := 3, cutoff := 21600, margin := 900 }

def booking (x : Standing) : Booking :=
  { label := good, drop := .a, quarters := 4, kg := 400, seq := 1, standing := x }

/-- A state with trunk 17, class 3 and the pallet. -/
def withTrunk (r : Trunk) (p : Pallet) : State :=
  { withPallet p with trunks := [(17, r)], classes := [(3, class3)] }

/-- The same with the trunk active at door 12. -/
def atDoor (r : Trunk) (p : Pallet) : State :=
  (withTrunk { r with placement := .active 12 } p).modDoor 12 fun d =>
    { d with slots := 10, reserve := 2, active := some 17 }

def frame (stop : Bool) (left : List (Byte × List Byte)) : MgmtFrame :=
  { source := src, tag := 7, stop := stop, left := left }

/-- A state with one frame in progress, its requests left as given. -/
def withFrame (stop : Bool) (left : List (Byte × List Byte)) : State :=
  { State.reset with frames := [frame stop left] }

def running (n : Nat) (s : State) : State :=
  { s with clock := { value := n, running := true, periods := 0 } }

def withMover (x : Mover) (s : State) : State :=
  { s with movers := s.movers.set 3 x }

/-! Tests of the statements' hypotheses on hand-ons, by evaluation. -/

theorem alone {s : State} {d : Nat} {v : Option Nat}
    (h : (s.grantPass d).doors = [] ∧
      ((s.grantPass d).staged = true → ((s.grantPass d).state.door d).active = v)) :
    s.passAlone d v := h

theorem ends {s : State} {t d : Nat} {r : Trunk} (hr : s.trunk? t = some r)
    (hp : r.placement = .active d) (h : r.phase = .due ∨ (s.door d).depth ≤ r.inFlight ∨
      (r.window.length ≤ 128 ∧ ∀ b ∈ r.window, s.isCandidate r d b = false)) : s.attemptEnds t := by
  intro r' d' hr' hp'
  rw [hr] at hr'; cases hr'
  rw [hp] at hp'; cases hp'
  exact h

/-! ## WellFormed refuses an ill-formed command of each kind -/

def badFrame : RawFrame := { bytes := [] }

theorem test_wf_place_kind : (Instr.badPlaceKindScan src 3 (scan 1 400)).wf = false := by decide
theorem test_wf_accept_timeout : (Instr.acceptTimeout 33).wf = false := by decide
theorem test_wf_done_timeout : (Instr.doneTimeout 0).wf = false := by decide
theorem test_wf_close_time : (Instr.closeTimeReached 129).wf = false := by decide
theorem test_wf_cutoff : (Instr.cutoffReached 0).wf = false := by decide
theorem test_wf_forward : (Instr.forwardFrame .floor badFrame).wf = false := by decide
theorem test_wf_bad_request : (Instr.badRequestCode 0x12 []).wf = false := by decide
theorem test_wf_place : (Instr.placeActive 17 12 1).wf = false := by decide
theorem test_wf_restart : (Instr.restartFull 1).wf = false := by decide

/-! ## Figures of the spec -/

/-- The worked check digits of section 1.1 and the misread label of section 1.8. -/
theorem test_check_digit :
    digitsPass (scan 1 400) = true ∧ digitsPass { scan 1 400 with label := 0x100000000030 } = true ∧
      digitsPass { scan 1 400 with label := 0x551208034477 } = false := by decide

/-- Event 1 and event 8 of section 7.5: K1's loads, and K5's above the kingpin limit. -/
theorem test_balance :
    (trunk17.project class3 1150 0).axle = 3128 ∧ (trunk17.project class3 1150 0).kingpin = 3023 ∧
      ({ trunk17 with plannedWeight := 5230, plannedMoment := 1905200 }.project class3 1190 5).kingpin
        = 6912 := by decide

/-- The slack of section 6.8 at 20 700: 900 s less nine weights of 45 s; and after SET_CUTOFF. -/
theorem test_slack :
    let r : Trunk := { trunk17 with window := List.replicate 9 (booking .unreleased) }
    (running 20700 (withTrunk r (pallet .staged))).slack r = 495 ∧
      (running 20700 (withTrunk r (pallet .staged))).slack { r with cutoff := 22200 } = 1095 := by
  decide

/-- P5 of section 4.8: trunk 41 has space but not weight, trunk 43 takes it at index 2 with SPILL. -/
theorem test_spill :
    let s : State := { State.reset with
      classes := [(3, class3), (6, { class3 with rows := 4, payload := 4000 })]
      trunks := [(41, { trunk17 with dropA := 44, cls := 6, bookedQuarters := 14, bookedKg := 3830 }),
        (43, { trunk17 with dropA := 44, bookedQuarters := 30, bookedKg := 6200 })] }
    s.choose { pallet .held with depot := some 44, bookingKg := 1200 } [41, 43, 47] =
      some { trunk := 43, drop := .a, index := 2, spill := true } := by decide

/-- CRC-32 of the nine digits "123456789" is CBF43926, its published check value; the sequence starts
with the low byte. -/
theorem test_check_sequence :
    checkSequence [0x31, 0x32, 0x33, 0x34, 0x35, 0x36, 0x37, 0x38, 0x39] = [0x26, 0x39, 0xF4, 0xCB] := by
  decide +kernel

/-- A frame's bytes with the check sequence of them. -/
def checked (bs : List Byte) : RawFrame := { bytes := bs ++ checkSequence bs }

/-- A Scan frame of unit 5 of hub 3 is forwarded by unit 4 of that hub and taken by unit 5; with one
byte of it changed it is dropped. -/
theorem test_classify :
    let bs := bytesOf (0xFFFFFFFFFFFF#48) 6 ++ bytesOf src 6 ++ [0xB5, 0xD2, 3, 5, 1, 0] ++
      scanBytes 1 (scan 12 400) ++ List.replicate 26 0
    let f := checked bs
    classify 3 5 .floor f = .take (.laneScan src (scan 12 400)) ∧ classify 3 4 .floor f = .forward ∧
      classify 3 5 .yard f = .discard ∧
      classify 3 4 .floor { bytes := f.bytes.set 15 4 } = .discard := by decide +kernel

/-- A CANCEL as the port sends it: 60 bytes and a check sequence that is right. -/
theorem test_own_frame_on_the_wire :
    let bs := (TxFrame.own { dest := src, hub := 3, unit := 5, body := .directive (.cancel 1 7) }).bytes
    bs.length = 64 ∧ bs.take 18 = bytesOf src 6 ++ [0x02, 0x4E, 0x5A, 0, 3, 5, 0xB5, 0xD2, 3, 5, 5, 0] ∧
      RawFrame.checkOk { bytes := bs } = true := by decide +kernel

/-! ## States and operands that meet the statements' hypotheses

One theorem a statement; the parts of each are the statement's clauses in their order, at the boundary
values of their ranges. -/

theorem witness_requests_decode :
    (Instr.setOutputs src).wf = true ∧
      encodeRequest (.setOutputs src) = some (0x41, [0x02, 0, 0, 0, 0, 0x02]) := by decide

theorem witness_management_body :
    (1 ≤ [((0x12 : Byte), ([] : List Byte))].length ∧ [((0x12 : Byte), ([] : List Byte))].length ≤ 32) ∧
      (∀ e ∈ List.replicate 32 ((0x02 : Byte), List.replicate 255 (0 : Byte)), e.2.length < 256) := by
  refine ⟨by decide, fun e he => ?_⟩
  rw [List.eq_of_mem_replicate he, List.length_replicate]
  decide

theorem witness_frames_are_taken :
    (0 : Byte) ≠ 1 ∧ ((3 : Byte) = 3 ∧ (5 : Byte) = (5 : BitVec 4).zeroExtend 8) ∧
      16 ≤ (scanBytes 1 (scan 12 400)).length ∧ (List.replicate 15 (0 : Byte)).length < 16 ∧
      4 ≤ [(4 : Byte), 1, 0, 0].length ∧ terminalCommand src [4, 1, 0, 0] = some (.signOn src 4) ∧
      [(4 : Byte), 1, 0].length < 4 ∧ terminalCommand src [4, 6, 0, 0] = none ∧
      ¬(Port.yard = .floor ∧ ((1 : Byte) = 1 ∨ (1 : Byte) = 2)) ∧ ¬(Port.yard = .yard ∧ (1 : Byte) = 3) := by
  decide

theorem witness_any_frame :
    let other : List Byte := List.replicate 60 0
    let short : List Byte := List.replicate 12 0 ++ [0xB5, 0xD2] ++ List.replicate 3 0
    ([1, 2, 3, 4] : List Byte).length = 4 ∧ [1, 2, 3, 4] ≠ checkSequence other ∧
      other[12]? ≠ some 0xB5 ∧
      (short[12]? = some 0xB5 ∧ short[13]? = some 0xD2 ∧ short.length < 18) := by decide +kernel

theorem witness_forwarded_frame :
    let data : List Byte := [1, 2, 3, 4, 5, 6, 7, 8]
    let f := checked data
    let s (n : Nat) : State := { State.reset with
      yard := { pass := List.replicate n [], sending := some (.pass []) } }
    (Port.floor = .floor ↔ Port.yard = .yard) ∧ classify (s 63).hub (s 63).unit .floor f = .forward ∧
      ((s 63).port .yard).pass.length < 64 ∧ 64 ≤ ((s 64).port .yard).pass.length ∧
      ((s 64).port .yard).sending.isSome ∧ f.bytes = data ++ checkSequence data ∧
      (List.replicate 6 (0xFF : Byte)).length = 6 ∧ 6 ≤ data.length := by decide +kernel

theorem witness_port_transmits :
    let f : OwnFrame := { dest := src, hub := 0, unit := 0, body := .directive (.cancel 1 1) }
    let s (n : Nat) (x : List (List Byte)) : State := { State.reset with
      floor := { own := List.replicate n f, pass := x, sending := some (.pass []) } }
    256 ≤ ((s 256 []).port .floor).own.length ∧ ((s 255 []).port .floor).own.length < 256 ∧
      ((s 255 []).port .floor).sending.isSome ∧ State.reset.port .floor = {} ∧
      State.reset.restart = none ∧ ((s 1 []).port .floor).own = [f] ∧
      ((s 0 [[1]]).port .floor).own = [] ∧ ((s 0 [[1]]).port .floor).pass = [[1]] ∧
      ((s 0 []).port .floor).pass = [] := by
  exact ⟨(List.length_replicate (n := 256)).ge, (List.length_replicate (n := 255)).trans_lt (by decide),
    rfl, rfl, rfl, rfl, rfl, rfl, rfl⟩

def restarting (k : RestartKind) (x : Option OwnFrame) : State :=
  { State.reset with restart := some { kind := k, reply := x, begun := x.isNone } }

theorem witness_restart_is_taken :
    let f : OwnFrame := { dest := src, hub := 0, unit := 0, body := .directive (.cancel 1 1) }
    (restarting .full (some f)).restart = some { kind := .full, reply := some f, begun := false } ∧
      (restarting .full none).restart = some { kind := .full, reply := none, begun := true } ∧
      (restarting .floor none).restart = some { kind := .floor, reply := none, begun := true } := by
  decide

theorem witness_pending_restart :
    (restarting .full none).restart.isSome ∧ (Instr.intakeScan src (scan 1 400)).goesOn = false ∧
      Instr.readClock.goesOn = false := by decide

theorem witness_management_frame :
    let s (n : Nat) : State := { State.reset with frames := List.replicate n (frame false []) }
    let good : List Byte := [0, 7, 1, 1, 0x12, 0]
    State.reset.restart = none ∧
      (bodyTag [0, 7, 0, 33] = some 7 ∧ bodyElements [0, 7, 0, 33] = none) ∧ bodyTag [0] = none ∧
      (bodyTag good = some 7 ∧ bodyElements good = some (true, [(0x12, [])]) ∧ (s 3).frames.length < 4) ∧
      4 ≤ (s 4).frames.length := by decide

theorem witness_result_is_accounted :
    let s := withFrame true [(0x12, [])]
    let t := withFrame false [(0x12, []), (0x42, [])]
    (s.dueFrame = some (frame true [(0x12, [])]) ∧ Result.noSuch ≠ .done ∧
        (frame true [(0x12, [])]).stop = true) ∧
      ((frame true [(0x12, [])]).left.drop 1 = [] ∧ Result.done = .done) ∧
      (t.dueFrame = some (frame false [(0x12, []), (0x42, [])]) ∧
        (frame false [(0x12, []), (0x42, [])]).left.drop 1 ≠ []) := by decide

def record (n : Nat) (x : Record) : List (Nat × Record) := List.replicate n (1, x)

def settings : Record := .settings { limits := {}, verdictAddress := 0, hub := 0, unit := 0, frames := 0 }

/-- A state whose due frame has only READ_NOTICES, or only FORCE_RELEASE of door 12, left. -/
def withRecords (left : Byte × List Byte) (rs : List (Nat × Record)) : State :=
  { atDoor trunk17 (pallet .held) with frames := [{ frame false [left] with records := rs }] }

theorem witness_bad_request :
    let fits := record 26 (.trunk none) ++ record 2 (.row .bank0 none)
    let exceeds := record 25 (.trunk none) ++ [(1, settings)] ++ record 2 (.release none)
    let large := record 30 (.trunk none) ++ record 4 (.clock true 0)
    let size (rs : List (Nat × Record)) : Nat := (rs.map fun x => x.2.size + 3).sum
    ((withRecords (0x34, []) fits).isDue .readNotices = true ∧ size fits + 207 + 3 = 1400) ∧
      ((withRecords (0x34, []) exceeds).isDue .readNotices = true ∧ size exceeds + 207 + 3 = 1401) ∧
      (let s := withRecords (0x21, [12]) large
       s.restart = none ∧ s.isDue (.forceRelease 12) = true ∧ isDoorNumber (12 : Byte).toNat = true ∧
         (s.door (12 : Byte).toNat).active = some 17 ∧
         s.trunk? 17 = some { trunk17 with placement := .active 12 } ∧ trunk17.phase ≠ .due ∧
         trunk17.inFlight < (s.door (12 : Byte).toNat).depth ∧ 1400 < size large + 16 + 3) ∧
      decodeRequest 0x0C [] = .badRequestCode 0x0C [] ∧ decodeRequest 0x50 [1] = .badRequestCode 0x50 [1] ∧
        decodeRequest 0x12 [0] = .badRequestCode 0x12 [0] := by decide

/-- The reset state with commands waiting. -/
def queued (cs : List Instr) : State := { State.reset with pending := cs }

theorem queued_safe (cs : List Instr) : (queued cs).Safe where
  floor := ⟨Nat.zero_le _, Nat.zero_le _⟩
  yard := ⟨Nat.zero_le _, Nat.zero_le _⟩
  floorBusy := fun _ => ⟨rfl, rfl⟩
  yardBusy := fun _ => ⟨rfl, rfl⟩
  repeats := Nat.zero_le _
  bank0 := ⟨Nat.zero_le _, nofun, .nil, rfl, nofun⟩
  bank1 := ⟨Nat.zero_le _, nofun, .nil, rfl, nofun⟩
  clock := Nat.zero_le _
  frames := Nat.zero_le _
  turn := .inl rfl
  left := nofun
  pallets := ⟨rfl, Nat.zero_le _⟩
  trunks := ⟨rfl, nofun⟩
  classes := ⟨rfl, nofun⟩
  counter := ⟨Nat.le_refl 1, by show 1 ≤ 4294967295; decide⟩
  lastMove := Nat.zero_le _
  rotation := ⟨.refl _, .refl _⟩

theorem door_reset (d : Nat) : State.reset.door d = {} := by
  unfold State.door nth
  split
  · rfl
  · show (Vector.replicate 48 ({} : Door)).getD (d - 1) {} = {}
    by_cases h : d - 1 < 48 <;> simp [Vector.getD, h]

theorem queued_agrees (cs : List Instr) : (queued cs).DoorsAgree := by
  have h (d) : (queued cs).door d = {} := door_reset d
  have k (t) : (queued cs).trunk? t = none := rfl
  constructor <;> intro d <;> simp [h, k]

theorem witness_every_step_keeps_safe :
    (queued [.clockAdvance]).Safe ∧ ∃ t, step (queued [.clockAdvance]) = .next t :=
  ⟨queued_safe _, _, rfl⟩

theorem witness_floor_changes_no_settings :
    (Instr.signOff 4).fromFloor = true ∧ (∃ m, Instr.acceptTimeout 4 = .acceptTimeout m) ∧
      ∃ t, exec (.acceptTimeout 4) State.reset = .next t := by
  exact ⟨rfl, ⟨4, rfl⟩, _, rfl⟩

/-! ### Scans -/

theorem witness_scan_out_of_place :
    State.reset.restart = none ∧ 32 < (scan 33 400).number.toNat ∧ (scan 0 400).number = 0 ∧
      48 < (scan 49 400).number.toNat ∧ (scan 1 400).number ≠ 0 ∧ 4 ≤ (4 : Byte).toNat := by decide

theorem witness_scan_with_wrong_digits :
    State.reset.restart = none ∧
      placeInRange .intake (32 : Byte).toNat = true ∧ placeInRange .lane (48 : Byte).toNat = true ∧
      placeInRange .load (1 : Byte).toNat = true ∧ placeInRange .rework (0 : Byte).toNat = true ∧
      9 < (0xA47003159269 : Label).toNat / 16 ^ (11 - 0) % 16 ∧
      9 < (0x38412F : ZoneCode).toNat / 16 ^ (5 - 5) % 16 ∧
      -- the weighted digits of 047003159268 sum to 181 (section 1.1), and its twelfth digit is 8
      (0x047003159268 : Label).toNat / 16 ^ (11 - 11) % 16 ≠ (10 - 181 % 10) % 10 := by decide

def entry (time : Nat) : RepeatEntry := { kind := .intake, number := 7, label := good, time := time }

theorem witness_repeat_scans :
    let s : State := { running 20109 State.reset with repeats := [entry 20100] }
    s.restart = none ∧ placeInRange .intake (scan 7 400).number.toNat = true ∧
      digitsPass (scan 7 400) = true ∧ entry 20100 ∈ s.repeats ∧ (entry 20100).kind = .intake ∧
      (entry 20100).number = (scan 7 400).number.toNat ∧ (entry 20100).label = (scan 7 400).label ∧
      (entry 20100).time ≤ s.clock.value ∧ s.clock.value - (entry 20100).time < s.limits.repeatWindow := by
  decide

/-- 64 entries of 64 places, and 63 of them. -/
def entries (n : Nat) : List RepeatEntry :=
  (List.range n).map fun i => { kind := .lane, number := i, label := good, time := 0 }

theorem witness_repeat_list :
    let same (e x : RepeatEntry) : Prop := e.kind = x.kind ∧ e.number = x.number ∧ e.label = x.label
    (entries 64).length ≤ 64 ∧ (entries 64).Pairwise (fun e x => ¬same e x) ∧
      64 ≤ ((entries 64).filter fun e => !e.names .load 1 good).length ∧
      ¬64 ≤ ((entries 64).filter fun e => !e.names .lane 1 good).length := by
  refine ⟨by decide, ?_, by decide, by decide⟩
  unfold entries
  rw [List.pairwise_map]
  exact List.nodup_range.imp fun h x => h x.2.1

theorem passes {k : PlaceKind} {n : Byte} {s : State} (h : s.restart = none)
    (hp : placeInRange k n.toNat = true) (hr : s.repeats = []) (kg : BitVec 16) :
    s.ScanPasses k (scan n kg) where
  restart := h
  place := hp
  digits := (by decide : digitsPass (scan 1 400) = true)
  fresh := by unfold State.isRepeat; rw [hr]; rfl

/-- 4096 records, none of the label. -/
def fullTable : State := { State.reset with pallets := List.replicate 4096 (0, pallet .held) }

theorem witness_scan_of_unknown :
    State.reset.pallet? good = none ∧ State.reset.ScanPasses .lane (scan 48 400) ∧
      State.reset.ScanPasses .load (scan 1 400) ∧ State.reset.ScanPasses .rework (scan 0 400) ∧
      fullTable.pallet? good = none ∧ fullTable.ScanPasses .intake (scan 32 400) ∧
      4096 ≤ fullTable.pallets.length := by
  have h (n : Nat) (k : Nat) (hk : k ≠ 0) :
      Table.get? (List.replicate n (0, pallet .held)) k = none := by
    induction n with
    | zero => rfl
    | succ n ih => rw [List.replicate_succ, Table.get?, if_neg (Ne.symm hk), ih]
  exact ⟨rfl, passes rfl rfl rfl _, passes rfl rfl rfl _, passes rfl rfl rfl _,
    h 4096 _ (by decide), passes rfl rfl rfl _, (List.length_replicate (n := 4096)).ge⟩

/-- An intake of section 4.3's kind: zone 384120 lies in an entry for depot 42, whose row names trunk
17. -/
def routed : State :=
  { State.reset with
    bank0 := { zones := [{ first := 384000, last := 384499, depot := 42, hold := false }]
               rows := [(42, [17])] }
    trunks := [(17, trunk17)], classes := [(3, class3)] }

theorem witness_intake_books :
    let made := routed.intakeRecord (clampScan (scan 7 1200))
    routed.ScanPasses .intake (scan 7 1200) ∧ routed.pallet? good = none ∧
      routed.pallets.length < 4096 ∧ made.measured ≤ made.typeLimit ∧
      routed.admission made =
        .books 42 false { trunk := 17, drop := .a, index := 1, spill := false } ∧
      routed.trunk? 17 = some trunk17 ∧ trunk17.placement = .unplaced := by
  refine ⟨passes rfl rfl rfl _, ?_⟩
  decide

/-- The bank of the worked lookups of section 2.2. -/
def workedBank : Bank :=
  { zones := [{ first := 100000, last := 199999, depot := 11, hold := false },
      { first := 384000, last := 384499, depot := 42, hold := false },
      { first := 385000, last := 385999, depot := 43, hold := true },
      { first := 400000, last := 469999, depot := 7, hold := false }]
    rows := [(42, [17, 23]), (43, [25]), (810, [31])] }

/-- The six lookups of that table. -/
theorem test_worked_lookups :
    workedBank.lookup 0x384120 .standard = .found 42 false [17, 23] ∧
      workedBank.lookup 0x384120 .priority = .found 42 true [17, 23] ∧
      workedBank.lookup 0x384120 .timed = .found 42 false [31] ∧
      workedBank.lookup 0x385500 .standard = .zoneHeld ∧
      workedBank.lookup 0x299999 .am = .noRoute ∧ workedBank.lookup 0x450000 .am = .noTrunk 7 := by
  decide

theorem witness_route_lookup :
    let b := workedBank
    let s : State := { State.reset with bank0 := b, trunks := [(17, trunk17)], classes := [(3, class3)] }
    let p : Pallet := { pallet .held with depot := some 42 }
    b.within ∧
      (zoneValue 0x299999 = some 299999 ∧ ∀ e ∈ b.zones, ¬(e.first ≤ 299999 ∧ 299999 ≤ e.last)) ∧
      (zoneValue 0x384499 = some 384499 ∧ ∃ e ∈ b.zones, e.last = 384499 ∧ e.hold = false ∧
        b.rows.get? (0 * 256 + e.depot) = some [17, 23] ∧
        b.rows.get? (1 * 256 + e.depot) = none ∧ b.rows.get? e.depot = some [17, 23]) ∧
      (∃ e ∈ b.zones, e.first = 385000 ∧ e.hold = true) ∧
      (∃ e ∈ b.zones, e.first = 400000 ∧ e.hold = false ∧ b.rows.get? (2 * 256 + e.depot) = none ∧
        b.rows.get? e.depot = none) ∧
      (s.choose p [17, 23] = some { trunk := 17, drop := .a, index := 1, spill := false } ∧
        s.choose p [31] = none) :=
  ⟨⟨by decide, by decide, by decide, by decide, by decide⟩, by decide⟩

theorem witness_intake_unsafe_or_booked :
    (State.reset.ScanPasses .intake (scan 7 1501) ∧ State.reset.pallet? good = none ∧
        State.reset.pallets.length < 4096 ∧ 1500 < (scan 7 1501).kg.toNat) ∧
      ((withPallet (pallet .staged)).ScanPasses .intake (scan 7 400) ∧
        (withPallet (pallet .staged)).pallet? good = some (pallet .staged) ∧
        (pallet .staged).label = good ∧ (pallet .staged).state = .staged ∧
        (withPallet (pallet .staged)).freeList = []) :=
  ⟨⟨passes rfl rfl rfl _, by decide⟩, passes rfl rfl rfl _, by decide⟩

/-- The same with trunk 17 as given, and door 12. -/
def routedTo (r : Trunk) (f : Door → Door) : State :=
  ({ routed with trunks := [(17, r)] }).modDoor 12 fun d => f { d with slots := 10, reserve := 2 }

/-- What an intake of 400 kg books to trunk 17 before its hand-ons. -/
def bookedIn (s : State) (x : Drop) : State :=
  let made := s.intakeRecord (clampScan (scan 7 400))
  let counted := ((s.enterRepeat .intake 7 good).addPallet made).reportCount
  (counted.modPallet good fun p => { p with depot := some 42 }).makeBooking made
    { trunk := 17, drop := x, index := 1, spill := false }

theorem witness_intake_again :
    let s := withPallet (pallet .misloaded)
    s.ScanPasses .intake (scan 7 1501) ∧ s.pallet? good = some (pallet .misloaded) ∧
      (pallet .misloaded).claimDoor = none ∧ 1500 < (scan 7 1501).kg.toNat ∧
      (s.ScanPasses .intake (scan 7 1500) ∧
        s.admission (s.intakeRecord (clampScan (scan 7 1500))) = .fails none false .noRoute ∧
        (s.intakeRecord (clampScan (scan 7 1500))).measured ≤ 1500) :=
  ⟨passes rfl rfl rfl _, by decide, rfl, by decide, passes rfl rfl rfl _, by decide, by decide⟩

theorem witness_intake_books_at_a_door :
    let next := routedTo { trunk17 with placement := .next 12 } fun d =>
      { d with next := some 17, nextPending := true }
    let r : Trunk := { trunk17 with dropA := 43, dropB := some 42, placement := .active 12 }
    let active := routedTo r fun d => { d with active := some 17 }
    (next.ScanPasses .intake (scan 7 400) ∧ next.pallet? good = none ∧
        next.admission (next.intakeRecord (clampScan (scan 7 400))) =
          .books 42 false { trunk := 17, drop := .a, index := 1, spill := false } ∧
        (bookedIn next .a).passAlone 12 none) ∧
      (active.admission (active.intakeRecord (clampScan (scan 7 400))) =
          .books 42 false { trunk := 17, drop := .b, index := 1, spill := false } ∧
        ((bookedIn active .b).trunk? 17).map Trunk.loadingDrop ≠ some r.loadingDrop ∧
        (bookedIn active .b).passAlone 12 (some 17) ∧
        ((bookedIn active .b).afterPass 12).attemptEnds 17) :=
  ⟨⟨passes rfl rfl rfl _, by decide, by decide, alone (by decide)⟩, by decide, by decide,
    alone (by decide), ends (r := _) rfl rfl (by decide)⟩

theorem witness_probe :
    routed.takes (.probe 0 (scan 7 400)) 34 ∧ placeInRange .intake (scan 7 400).number.toNat = true ∧
      digitsPass (scan 7 400) = true ∧ (∀ p, routed.pallet? good = some p → p.label = good) ∧
      (routed.probe 0 (scan 7 400)).result = .booked := by
  refine ⟨⟨rfl, by decide⟩, by decide, by decide, fun p h => ?_, by decide⟩
  rw [show routed.pallet? good = none by decide] at h
  cases h

def laneBound : Pallet :=
  { pallet .laneBound with trunk := some 17, drop := some .a, claimDoor := some 12 }

theorem witness_lane_scans :
    ((withPallet laneBound).ScanPasses .lane (scan 12 400) ∧
        (withPallet laneBound).pallet? good = some laneBound ∧ laneBound.label = good ∧
        laneBound.state = .laneBound ∧ laneBound.claimDoor = some (12 : Byte).toNat ∧
        laneBound.trunk ≠ ((withPallet laneBound).door (12 : Byte).toNat).active) ∧
      (withPallet (pallet .misloaded)).ScanPasses .lane (scan 1 400) ∧
        (withPallet (pallet .misloaded)).pallet? good = some (pallet .misloaded) ∧
        (pallet .misloaded).state = .misloaded :=
  ⟨⟨passes rfl rfl rfl _, by decide⟩, passes rfl rfl rfl _, by decide⟩

/-- Trunk 17 with the pallet's booking UNRELEASED. -/
def bookedTrunk : Trunk :=
  { trunk17 with
    window := [booking .unreleased], bookedQuarters := 4, bookedKg := 400, held := [good] }

def booked : Pallet := { pallet .held with trunk := some 17, drop := some .a }

/-- Trunk 17 next at door 12. -/
def nextAt (p : Pallet) : State :=
  (withTrunk { bookedTrunk with placement := .next 12 } p).modDoor 12 fun d =>
    { d with slots := 10, reserve := 2, next := some 17, nextPending := true }

def staged : Pallet :=
  { pallet .staged with
    trunk := some 17, drop := some .a, claimDoor := some 12, location := .lane 12 }

/-- The scanned pallet arrived in lane 12. -/
def arrived (s : State) : State :=
  ((s.enterRepeat .lane 12 good).endMove good).modPallet good fun q =>
    { q with location := .lane 12, state := .staged, flags := { q.flags with mislaned := false } }

theorem witness_lane_arrivals :
    let r (n : Nat) : Trunk := { bookedTrunk with held := [], inFlight := n }
    let s (n : Nat) : State := atDoor (r n) laneBound
    let low (n : Nat) : State := { s n with classes := [(3, { class3 with kingpinLimit := 1000 })] }
    let a (n : Nat) : Trunk := { r n with placement := .active 12 }
    let x := (a 1).project class3 400 0
    ((s 2).ScanPasses .lane (scan 12 400) ∧ (s 2).pallet? good = some laneBound ∧
        laneBound.claimDoor = some 12 ∧ ((s 2).door 12).active = some 17 ∧
        (s 2).trunk? 17 = some (a 2) ∧ (arrived (s 2)).attemptEnds 17) ∧
      (arrived (s 1)).firstCandidate (a 1) 12 [] (booking .unreleased) [] ∧
      ((a 1).phase ≠ .due ∧ ((s 1).door 12).hold = false ∧
        ((a 1).fit ((s 1).classOf (a 1)).rows 4 400).target? = some 0 ∧ x.passes class3 = true ∧
        (a 1).inFlight + 1 = ((s 1).door 12).depth ∧
        ((a 1).setStanding good .released).loadingDrop = (a 1).loadingDrop) ∧
      (arrived (low 0)).firstCandidate (a 0) 12 [] (booking .unreleased) [] ∧
      ((a 0).project ((low 0).classOf (a 0)) 400 0).passes ((low 0).classOf (a 0)) = false ∧
        (a 0).inFlight = 0 ∧ 0 < ((low 0).door 12).depth :=
  ⟨⟨passes rfl rfl rfl _, by decide, rfl, by decide, by decide, ends (r := _) rfl rfl (by decide)⟩,
    ⟨rfl, by decide, by decide, nofun, by decide⟩, by decide,
    ⟨rfl, by decide, by decide, nofun, by decide⟩, by decide⟩

theorem witness_lane_by_state_and_claim :
    let bound (m : Bool) : Pallet :=
      { staged with state := .loadBound, position := some 0, flags := { mislaned := m } }
    let unclaimed : Pallet := { staged with claimDoor := none }
    let unplanned := ((nextAt booked).enterRepeat .lane 12 good).modTrunk 17 fun r => { r with held := [] }
    let moved := ((withTrunk bookedTrunk booked).enterRepeat .lane 48 good).modPallet good fun q =>
      { q with location := .lane 48 }
    let away := (((nextAt unclaimed).enterRepeat .lane 48 good).modPallet good fun q =>
      { q with location := .lane 48, state := .held }).modTrunk 17 fun r => { r with held := [good] }
    ((withPallet laneBound).ScanPasses .lane (scan 48 400) ∧
        (withPallet laneBound).pallet? good = some laneBound ∧ 12 ≠ 48) ∧
      ((withPallet (pallet .loaded)).ScanPasses .lane (scan 1 400) ∧
        (withPallet (pallet .loaded)).pallet? good = some (pallet .loaded)) ∧
      -- HELD at its trunk's door, and elsewhere
      ((nextAt booked).ScanPasses .lane (scan 12 400) ∧ (nextAt booked).pallet? good = some booked ∧
        booked.state = .held ∧ (nextAt booked).doorOfTrunk 17 = some 12 ∧
        unplanned.passesAlone none [] ∧ unplanned.attemptEnds 17) ∧
      ((withTrunk bookedTrunk booked).ScanPasses .lane (scan 48 400) ∧
        (withTrunk bookedTrunk booked).doorOfTrunk 17 ≠ some 48 ∧ moved.passesAlone none []) ∧
      -- STAGED without a claim elsewhere, with one, and without one at its trunk's door
      ((nextAt unclaimed).ScanPasses .lane (scan 48 400) ∧
        (nextAt unclaimed).pallet? good = some unclaimed ∧ away.passesAlone none [12]) ∧
      ((nextAt staged).pallet? good = some staged ∧ staged.claimDoor = some 12) ∧
      ((nextAt unclaimed).doorOfTrunk 17 = some 12 ∧
        (((nextAt unclaimed).enterRepeat .lane 12 good).takeClaim good 12).attemptEnds 17) ∧
      -- LOAD_BOUND at its claim's lane, brought back there, and elsewhere
      ((atDoor bookedTrunk (bound true)).ScanPasses .lane (scan 12 400) ∧
        (atDoor bookedTrunk (bound true)).pallet? good = some (bound true) ∧
        (atDoor bookedTrunk (bound false)).pallet? good = some (bound false) ∧
        (bound false).claimDoor = some 12 ∧ 48 ≠ 12) := by
  refine ⟨⟨passes rfl rfl rfl _, by decide⟩, ⟨passes rfl rfl rfl _, by decide⟩,
    ⟨passes rfl rfl rfl _, by decide, rfl, by decide, trivial, ?_⟩,
    ⟨passes rfl rfl rfl _, by decide, trivial⟩,
    ⟨passes rfl rfl rfl _, by decide, alone (by decide), trivial⟩, by decide, ⟨by decide, ?_⟩,
    passes rfl rfl rfl _, by decide⟩
  all_goals
    intro r d hr hp
    cases hr
    cases hp

def loadBound : Pallet :=
  { pallet .loadBound with
    trunk := some 17, drop := some .a, claimDoor := some 12, position := some 0, location := .lane 12 }

/-- Trunk 17 in phase DUE with the pallet's booking RELEASED. -/
def dueTrunk : Trunk := { trunk17 with phase := .due, window := [booking .released], inFlight := 1 }

theorem witness_load_scans :
    let s := atDoor dueTrunk loadBound
    (s.ScanPasses .load (scan 12 400) ∧ s.pallet? good = some loadBound ∧ loadBound.label = good ∧
        loadBound.state = .loadBound ∧ loadBound.trunk = some 17 ∧ loadBound.claimDoor = some 12 ∧
        (s.door 12).active = some 17 ∧ (s.door 12).next = none ∧
        s.trunk? 17 = some { dueTrunk with placement := .active 12 } ∧ dueTrunk.phase = .due ∧
        dueTrunk.held = [] ∧ dueTrunk.booking? good = some (booking .released)) ∧
      (withPallet loadBound).ScanPasses .load (scan 48 400) ∧
        (withPallet loadBound).pallet? good = some loadBound ∧
        ((withPallet loadBound).door 48).active = none ∧ (withPallet loadBound).freeList = [] :=
  ⟨⟨passes rfl rfl rfl _, by decide⟩, passes rfl rfl rfl _, by decide⟩

/-- Trunk 17 active at door 12 with its one booking of standing `x`, and trunk 18 with the same. -/
def loadAt (x : Standing) (p : Pallet) : State :=
  let r : Trunk := { trunk17 with window := [booking x], inFlight := if x = .released then 1 else 0 }
  let s := atDoor r p
  { s with trunks := s.trunks.put 18 r }

def loadScanned (s : State) : State := (s.enterRepeat .load 12 good).endMove good

theorem witness_loads :
    let own : Pallet := { pallet .loaded with trunk := some 17 }
    let other : Pallet := { pallet .loaded with trunk := some 18 }
    let count (s : State) (n : Nat) : State := s.modTrunk 17 fun r => { r with
      window := [booking .loaded], loadedQuarters := 4, loadedKg := 400, inFlight := r.inFlight - n }
    let planned := ((count (loadScanned (loadAt .released loadBound)) 1).modPallet good fun q =>
      { q with state := .loaded, location := .trailer 17 }).releaseClaim good
    ((loadAt .loaded own).ScanPasses .load (scan 12 400) ∧
        (loadAt .loaded own).pallet? good = some own ∧
        ((loadAt .loaded own).door 12).active = some 17 ∧
        ((loadAt .loaded own).trunk? 17).map Trunk.placement = some (.active 12)) ∧
      ((loadAt .loaded other).ScanPasses .load (scan 12 400) ∧
        (loadAt .loaded other).pallet? good = some other ∧ other.trunk ≠ some 17) ∧
      ((loadAt .unreleased (pallet .exception)).ScanPasses .load (scan 12 400) ∧
        (loadAt .unreleased (pallet .exception)).pallet? good = some (pallet .exception) ∧
        (pallet .exception).trunk = none) ∧
      ((loadAt .released loadBound).ScanPasses .load (scan 12 400) ∧
        (loadAt .released loadBound).pallet? good = some loadBound ∧
        ((loadAt .released loadBound).trunk? 17).bind (·.booking? good) = some (booking .released) ∧
        planned.passesAlone (some 17) [12] ∧ (planned.afterPasses [12]).attemptEnds 17) :=
  ⟨⟨passes rfl rfl rfl _, by decide⟩, ⟨passes rfl rfl rfl _, by decide⟩,
    ⟨passes rfl rfl rfl _, by decide⟩, passes rfl rfl rfl _, by decide, by decide,
    ⟨alone (by decide), trivial⟩, ends (r := _) rfl rfl (by decide)⟩

theorem witness_unplanned_and_other_loads :
    let s := loadAt .unreleased booked
    let full (s : State) : State := s.modTrunk 17 fun r => { r with openPosition := some 19, fill := 4 }
    let loaded (s : State) : State := ((loadScanned s).modTrunk 17 fun r => { r with
      window := [booking .loaded], loadedQuarters := 4, loadedKg := 400 }).modPallet good fun q =>
        { q with state := .loaded, location := .trailer 17, flags := { q.flags with unplanned := true } }
    let r : Trunk := { trunk17 with window := [booking .unreleased], placement := .active 12 }
    let noFit := (loaded (full s)).modPallet good fun q => { q with flags := { q.flags with noFit := true } }
    let placed := ((loaded s).modTrunk 17 fun r =>
      r.place (.fresh 0) (r.project class3 400 0) 4 400).modPallet good fun q =>
        { q with position := some 0 }
    let o := loadAt .unreleased { booked with trunk := some 18 }
    let away := ((((loadScanned o).modTrunk 18 fun r => { r with window := [], held := [] }).modPallet good
      fun q => { q with trunk := none, drop := none, excluded := [18] }).raise .flush (.trunk 18)).modPallet
        good fun q => { q with state := .misloaded, location := .trailer 17 }
    (s.ScanPasses .load (scan 12 400) ∧ s.pallet? good = some booked ∧ booked.state = .held ∧
        s.trunk? 17 = some r ∧ r.booking? good = some (booking .unreleased)) ∧
      ((full s).ScanPasses .load (scan 12 400) ∧ (full s).pallet? good = some booked ∧
        ((full s).trunk? 17).any (fun r => (r.fit class3.rows 4 400).target?.isNone) ∧
        noFit.passesAlone (some 17) [] ∧ noFit.attemptEnds 17) ∧
      ((r.fit class3.rows 4 400).target? = some 0 ∧ placed.passesAlone (some 17) [] ∧
        placed.attemptEnds 17) ∧
      (o.ScanPasses .load (scan 12 400) ∧ o.pallet? good = some { booked with trunk := some 18 } ∧
        (o.trunk? 18).bind (·.booking? good) = some (booking .unreleased) ∧ away.passesAlone none []) :=
  ⟨⟨passes rfl rfl rfl _, by decide⟩,
    ⟨passes rfl rfl rfl _, by decide, by decide, trivial, ends (r := _) rfl rfl (by decide)⟩,
    ⟨by decide, trivial, ends (r := _) rfl rfl (by decide)⟩, passes rfl rfl rfl _, by decide, by decide,
    trivial⟩

theorem witness_rework_scan :
    (withPallet (pallet .exception)).ScanPasses .rework (scan 0 400) ∧
      (withPallet (pallet .exception)).pallet? good = some (pallet .exception) ∧
      (pallet .exception).label = good ∧ (pallet .exception).state = .exception ∧
      (withPallet (pallet .atRework)).ScanPasses .rework (scan 0 400) ∧
      (withPallet (pallet .atRework)).pallet? good = some (pallet .atRework) ∧
      (pallet .atRework).state = .atRework :=
  ⟨passes rfl rfl rfl _, by decide, rfl, rfl, passes rfl rfl rfl _, by decide, rfl⟩

theorem witness_rework_of_booked :
    let s := loadAt .released loadBound
    let off := ((((s.enterRepeat .rework 0 good).endMove good).releaseClaim good).modTrunk 17 fun r =>
      { r with window := [], bookedQuarters := 0, bookedKg := 0, held := [], inFlight := 0 }).modPallet
        good fun q => { q with
          trunk := none, drop := none, position := none, state := .atRework, location := .rework }
    (s.ScanPasses .rework (scan 0 400) ∧ s.pallet? good = some loadBound ∧
        (s.trunk? 17).bind (·.booking? good) = some (booking .released) ∧
        off.passesAlone (some 17) [12] ∧ (off.afterPasses [12]).attemptEnds 17) ∧
      ((withPallet (pallet .loaded)).ScanPasses .rework (scan 0 400) ∧
        (withPallet (pallet .loaded)).pallet? good = some (pallet .loaded)) :=
  ⟨⟨passes rfl rfl rfl _, by decide, by decide, ⟨alone (by decide), trivial⟩,
    ends (r := _) rfl rfl (by decide)⟩, passes rfl rfl rfl _, by decide⟩

/-! ### Movers and deadlines -/

def offered : Move := { move .offered with mover := some 4, acceptDeadline := some 20 }
def accepted : Move := { move .accepted with mover := some 4, doneDeadline := some 600 }

/-- Mover 4 in a state, with the pallet's move when it holds one. -/
def moving (x : MoverState) (mv : Option Move) : State :=
  withMover { address := some src, state := x, move := mv.map Move.number }
    (withPallet { pallet .held with move := mv })

theorem witness_sign_on_and_off :
    (moving .off none).restart = none ∧ isMoverNumber (4 : Byte).toNat = true ∧
      isMoverNumber (32 : Byte).toNat = true ∧ isMoverNumber (33 : Byte).toNat = false ∧
      ((moving .off none).mover 4).state = .off ∧ ((moving .silent none).mover 4).state = .silent ∧
      ((moving .free none).mover 4).state = .free ∧
      ((moving .offered (some offered)).mover 4).state = .offered ∧
      ((moving .busy (some accepted)).mover 4).state = .busy := by decide

theorem witness_accept :
    let s := running 86398 (moving .offered (some offered))
    (s.restart = none ∧ (s.mover 4).state = .offered ∧ (s.mover 4).move = some (7 : BitVec 16).toNat ∧
        s.palletOfMove 7 = some { pallet .held with move := some offered } ∧
        s.pallet? good = some { pallet .held with move := some offered } ∧
        (s.clock.running = true → s.clock.value ≠ 86399)) ∧
      (s.mover 4).move ≠ some (8 : BitVec 16).toNat ∧
      ((moving .busy (some accepted)).mover 4).move = some (7 : BitVec 16).toNat := by decide

theorem witness_decline_and_abandon :
    let s := moving .busy (some accepted)
    ((s.mover 4).move = some (7 : BitVec 16).toNat ∧
        s.palletOfMove 7 = some { pallet .held with move := some accepted } ∧
        s.pallet? good = some { pallet .held with move := some accepted } ∧
        (s.mover 4).state = .busy) ∧
      ((s.mover 4).state ≠ .silent ∧ (s.mover 4).move ≠ some (6 : BitVec 16).toNat) := by decide

theorem mover_reset (m : Nat) : (State.reset.mover m).state = .off := by
  unfold State.mover nth
  split
  · rfl
  · show ((Vector.replicate 32 ({} : Mover)).getD (m - 1) {}).state = .off
    by_cases h : m - 1 < 32 <;> simp [Vector.getD, h]

/-- Of a state whose movers but number 4 are as after reset, no other mover's deadline is reached. -/
theorem no_other_mover {s : State} {x : Mover} (hs : s.movers = State.reset.movers.set 3 x) (m : Nat)
    (h : m ≠ 4) : s.acceptReached m = false ∧ s.doneReached m = false := by
  have : (s.mover m).state = .off := by
    refine (congrArg Mover.state ?_).trans (mover_reset m)
    unfold State.mover
    rw [hs]
    exact nth_setNth_ne State.reset.movers x {} h
  simp [State.acceptReached, State.doneReached, this]

theorem witness_timeouts :
    let s := running 20 (moving .offered (some offered))
    let t := running 600 (moving .busy (some accepted))
    (s.acceptReached 4 = true ∧ (s.mover 4).move = some 7 ∧
        s.palletOfMove 7 = some { pallet .held with move := some offered } ∧
        s.pallet? good = some { pallet .held with move := some offered }) ∧
      (t.doneReached 4 = true ∧ (t.mover 4).move = some 7 ∧
        t.palletOfMove 7 = some { pallet .held with move := some accepted } ∧
        t.pallet? good = some { pallet .held with move := some accepted }) ∧
      (∀ m, m ≠ 4 → s.acceptReached m = false ∧ s.doneReached m = false) ∧
      (∀ m, m ≠ 4 → t.acceptReached m = false ∧ t.doneReached m = false) ∧
      (running 19 (moving .offered (some offered))).acceptReached 4 = false ∧
      (running 599 (moving .busy (some accepted))).doneReached 4 = false :=
  ⟨by decide, by decide, no_other_mover rfl, no_other_mover rfl, by decide, by decide⟩

/-- Of a state whose one trunk is number 17, no other trunk's deadline is reached. -/
theorem no_other_trunk {s : State} {r : Trunk} (hs : s.trunks = [(17, r)]) (t : Nat) (h : t ≠ 17) :
    s.closeReached t = false ∧ s.cutoffReached t = false := by
  have : s.trunk? t = none := by
    unfold State.trunk?
    rw [hs, Table.get?, if_neg (Ne.symm h)]; rfl
  simp [State.closeReached, State.cutoffReached, this]

theorem witness_close_time_and_cutoff :
    let s (n : Nat) : State := running n (withTrunk trunk17 (pallet .held))
    ((s 20700).closeReached 17 = true ∧ ∀ u, (s 20700).cutoffReached u = false) ∧
      ((s 21600).trunk? 17 = some trunk17 ∧ (s 21600).cutoffReached 17 = true ∧
        (∀ u, u ≠ 17 → (s 21600).closeReached u = false ∧ (s 21600).cutoffReached u = false) ∧
        (∀ b ∈ trunk17.window, b.standing ≠ .unreleased) ∧ (s 21600).closeReached 17 = true) ∧
      (s 20699).closeReached 17 = false ∧ (s 21599).cutoffReached 17 = false := by
  refine ⟨⟨by decide, fun u => ?_⟩, ⟨by decide, by decide, no_other_trunk rfl, by decide, by decide⟩,
    by decide, by decide⟩
  by_cases h : u = 17
  · subst h; decide
  · exact (no_other_trunk rfl u h).2

theorem witness_cutoff_flush :
    let s := running 21600 (withTrunk bookedTrunk booked)
    (∀ u, u ≠ 17 → s.closeReached u = false ∧ s.cutoffReached u = false) ∧
      s.trunk? 17 = some bookedTrunk ∧ s.cutoffReached 17 = true ∧
      bookedTrunk.placement = .unplaced ∧ bookedTrunk.window = [booking .unreleased] ∧
      (booking .unreleased).standing = .unreleased ∧ s.pallet? good = some booked ∧
      booked.label = (booking .unreleased).label ∧ booked.state = .held ∧ booked.move = none ∧
      booked.claimDoor = none ∧
      (booked.depot.bind fun d => (s.bank s.active).rowFor booked.cls d) = none ∧
      s.freeList = [] := ⟨no_other_trunk rfl, by decide⟩

/-! ### Routes, clock, classes and trunks -/

def zone (f l : Nat) : ZoneEntry := { first := f, last := l, depot := 42, hold := false }

/-- A standby bank with the entry 384000 to 384499 and the base row of depot 250. -/
def stocked : State :=
  { State.reset with bank1 := { zones := [zone 384000 384499], rows := [(250, [17])] } }

/-- Entries of one zone each. -/
def singles (n : Nat) : List ZoneEntry := (List.range n).map fun i => zone i i

theorem singles_within (n : Nat) (h : n ≤ 2048) :
    Bank.within { zones := singles n } ∧ (singles n).length = n ∧
      ∀ e ∈ singles n, ¬(e.first ≤ n ∧ n ≤ e.last) := by
  have hl : (singles n).length = n := by simp [singles]
  refine ⟨⟨hl.le.trans h, ?_, ?_, rfl, nofun⟩, hl, ?_⟩
  · simp [singles, zone]
  · show ((List.range n).map _).Pairwise _
    rw [List.pairwise_map]
    exact List.pairwise_lt_range
  · simp only [singles, List.mem_map, List.mem_range, forall_exists_index, and_imp]
    intro e i hi he
    subst he
    simp only [zone]
    omega

def bankOf (n : Nat) : State := { State.reset with bank1 := { zones := singles n } }

theorem bankOf_within (n : Nat) (h : n ≤ 2048) :
    (bankOf n).standby.within ∧ (∀ e ∈ (bankOf n).standby.zones, ¬(e.first ≤ n ∧ n ≤ e.last)) ∧
      n ≤ (bankOf n).standby.zones.length :=
  ⟨(singles_within n h).1, (singles_within n h).2.2, (singles_within n h).2.1.ge⟩

theorem witness_put_zone :
    (stocked.restart = none ∧ stocked.standby.within) ∧ zoneValue 0x38400A = none ∧
      (zoneValue 0x384000 = some 384000 ∧ zoneValue 0x384499 = some 384499 ∧ 384000 ≤ 384499 ∧
        1 ≤ (1 : Byte).toNat ∧ (250 : Byte).toNat ≤ 250 ∧ (1 : Byte).toNat ≤ 1) ∧
      (∃ e ∈ stocked.standby.zones, e.first = 384000 ∧ e.last = 384499) ∧
      ((∀ e ∈ stocked.standby.zones, ¬(e.first = 384499 ∧ e.last = 384600)) ∧
        ∃ e ∈ stocked.standby.zones, e.first ≤ 384600 ∧ 384499 ≤ e.last) ∧
      ((∀ e ∈ stocked.standby.zones, ¬(e.first ≤ 384999 ∧ 384500 ≤ e.last)) ∧
        stocked.standby.zones.length < 2048) ∧
      ((bankOf 2048).standby.within ∧
        (∀ e ∈ (bankOf 2048).standby.zones, ¬(e.first ≤ 2048 ∧ 2048 ≤ e.last)) ∧
        2048 ≤ (bankOf 2048).standby.zones.length) :=
  ⟨⟨rfl, by decide, by decide, by decide, rfl, by decide⟩, by decide, by decide, by decide,
    by decide, by decide, bankOf_within 2048 le_rfl⟩

theorem witness_drop_zone_and_rows :
    (stocked.restart = none ∧ stocked.standby.rows.wf = true) ∧ zoneValue 0x3840F0 = none ∧
      (zoneValue 0x384001 = some 384001 ∧ ∀ e ∈ stocked.standby.zones, e.first ≠ 384001) ∧
      (∃ e ∈ stocked.standby.zones, e.first = 384000) ∧
      ((0 : Byte).toNat < 1 ∧ 4 < (5 : Byte).toNat) ∧
      (1 ≤ (4 : Byte).toNat ∧ (4 : Byte).toNat ≤ 4 ∧ isDepot (0 : Byte).toNat = false ∧
        isDepot (251 : Byte).toNat = false ∧ 3 < (4 : Byte).toNat ∧ isTrunkNumber 129 = false ∧
        ¬[17, 17].Nodup) ∧
      (isDepot (250 : Byte).toNat = true ∧ (3 : Byte).toNat ≤ 3 ∧
        (∀ t ∈ [1, 128, 17, 19], isTrunkNumber t = true) ∧ [1, 128, 17, 19].Nodup) ∧
      (stocked.standby.rows.get? (3 * 256 + 250) = none ∧
        (stocked.standby.rows.get? (0 * 256 + 250)).isSome) := by decide

theorem witness_bank_requests : stocked.restart = none := rfl

theorem witness_bank_reads :
    (stocked.takes (.readZone 1 0x384120) 12 ∧ 1 < (2 : Byte).toNat ∧ zoneValue 0x38412A = none ∧
        (1 : Byte).toNat ≤ 1 ∧ zoneValue 0x384120 = some 384120 ∧
        (zone 384000 384499).contains 384120 = true ∧ (zone 384000 384499).contains 383999 = false) ∧
      (stocked.takes (.readDepotRow 1 250 0) 7 ∧ isDepot (250 : Byte).toNat = true ∧
        isDepot (251 : Byte).toNat = false ∧ 3 < (4 : Byte).toNat) :=
  ⟨⟨⟨rfl, by decide⟩, by decide⟩, ⟨rfl, by decide⟩, by decide⟩

theorem witness_clock :
    let quiet : State := running 86399 State.reset
    let late : State := running 20 (moving .offered (some offered))
    let halted (s : State) : State := { s with clock := { s.clock with running := false } }
    (State.reset.restart = none ∧ 86399 < (86400 : BitVec 32).toNat ∧
        (86399 : BitVec 32).toNat ≤ 86399 ∧ quiet.clock.running = true ∧
        State.reset.clock.running = false) ∧
      ((∀ t, quiet.closeReached t = false ∧ quiet.cutoffReached t = false) ∧
        ∀ m, quiet.acceptReached m = false ∧ quiet.doneReached m = false) ∧
      ((halted late).clock.running = false ∧ (20 : BitVec 32).toNat ≤ 86399 ∧
        (∀ t, late.closeReached t = false ∧ late.cutoffReached t = false) ∧
        moverNumbers.any late.moverReached = true) ∧
      (late.reportOwed = true ∧ ∃ v, late.takeReports = .next v) ∧
      (State.reset.pending = [] ∧ State.reset.reportOwed = false ∧
        let c : Clock := { value := 86399, running := true, periods := 24999998 }
        c.periods + 1 < 25000000 ∧ 25000000 ≤ { c with periods := 24999999 }.periods + 1) := by
  refine ⟨by decide, ⟨fun t => ⟨rfl, rfl⟩, fun m => ?_⟩,
    ⟨rfl, by decide, fun t => ⟨rfl, rfl⟩, by decide⟩, ⟨by decide, ?_⟩, by decide⟩
  · have h : ((running 86399 State.reset).mover m).state = .off := mover_reset m
    simp [State.acceptReached, State.doneReached, h]
  · exact ⟨_, rfl⟩

theorem witness_clock_and_class_reads :
    State.reset.takes .readClock 5 ∧ State.reset.takes (.readTrailerClass 7) 19 ∧
      (7 : Byte).toNat ≤ 7 ∧ 7 < (8 : Byte).toNat :=
  ⟨⟨rfl, by decide⟩, ⟨rfl, by decide⟩, by decide, by decide⟩

/-- The ranges of PUT_TRAILER_CLASS at their least and at their greatest values. -/
theorem witness_trailer_class :
    State.reset.restart = none ∧
      ((0 : Byte).toNat ≤ 7 ∧ 4 ≤ (4 : Byte).toNat ∧ 60 ≤ (60 : BitVec 16).toNat ∧
        300 ≤ (300 : BitVec 16).toNat ∧ 1000 ≤ (1000 : BitVec 16).toNat) ∧
      ((7 : Byte).toNat ≤ 7 ∧ (16 : Byte).toNat ≤ 16 ∧ (150 : BitVec 16).toNat ≤ 150 ∧
        (300 : BitVec 16).toNat ≤ 300 ∧ (1500 : BitVec 16).toNat ≤ 1500 ∧
        (20000 : BitVec 16).toNat ≤ 20000 ∧ (30000 : BitVec 16).toNat ≤ 30000 ∧
        (40000 : BitVec 16).toNat ≤ 40000) ∧ ¬(17 : Byte).toNat ≤ 16 ∧
      (∃ e ∈ (withTrunk trunk17 (pallet .held)).trunks, e.2.cls = (3 : Byte).toNat) ∧
      ∀ e ∈ (withTrunk trunk17 (pallet .held)).trunks, e.2.cls ≠ (7 : Byte).toNat := by decide

theorem witness_put_trunk :
    let s := withTrunk trunk17 (pallet .held)
    s.restart = none ∧ isTrunkNumber (129 : Byte).toNat = false ∧
      (isTrunkNumber (128 : Byte).toNat = true ∧ isTrunkNumber (1 : Byte).toNat = true ∧
        (7 : Byte).toNat ≤ 7 ∧ isDepot (250 : Byte).toNat = true ∧ isDepot (1 : Byte).toNat = true ∧
        (1 : Byte) ≠ 250 ∧ (86399 : BitVec 32).toNat ≤ 86399 ∧ (7200 : BitVec 16).toNat ≤ 7200) ∧
      s.classes.get? (7 : Byte).toNat = none ∧ (s.classes.get? (3 : Byte).toNat).isSome ∧
      ((withTrunk bookedTrunk booked).trunk? 17 = some bookedTrunk ∧ bookedTrunk.window ≠ []) ∧
      (s.clock.running = false ∧ s.trunk? 128 = none ∧ s.trunk? 17 = some trunk17 ∧
        trunk17.window = []) := by decide

/-- The phase tests of R47 and R50 at their boundaries, against a RUNNING clock: the second before the
close time, the close time, the second before the cut-off, the cut-off. -/
theorem witness_phase_tests :
    let s (n : Nat) : State := running n (withTrunk trunk17 (pallet .held))
    (∀ n, (s n).clock.running = true ∧ (s n).restart = none) ∧
      ((s 20699).clock.value < 21600 - 900 ∧ ¬(s 20700).clock.value < 21600 - 900 ∧
        (s 21599).clock.value < 21600 ∧ 21600 ≤ (s 21600).clock.value) ∧
      ((s 21600).trunk? 17 = some trunk17 ∧ trunk17.phase ≠ .due ∧
        ∀ b ∈ trunk17.window, b.standing ≠ .unreleased) := by
  exact ⟨fun _ => ⟨rfl, rfl⟩, by decide, by decide⟩

theorem witness_set_cutoff :
    let s := withTrunk trunk17 (pallet .held)
    s.restart = none ∧ ¬(86400 : BitVec 32).toNat ≤ 86399 ∧
      (isTrunkNumber (17 : Byte).toNat = true ∧ (86399 : BitVec 32).toNat ≤ 86399 ∧
        (7200 : BitVec 16).toNat ≤ 7200) ∧ s.trunk? (18 : Byte).toNat = none ∧
      ((withTrunk dueTrunk loadBound).trunk? 17 = some dueTrunk ∧ dueTrunk.phase = .due) ∧
      (s.trunk? (17 : Byte).toNat = some trunk17 ∧ trunk17.phase ≠ .due ∧
        s.clock.running = false) := by decide

theorem witness_drop_trunk :
    let s := withTrunk trunk17 (pallet .held)
    let full : Trunk := { trunk17 with window := [booking .loaded] }
    s.restart = none ∧ isTrunkNumber (0 : Byte).toNat = false ∧
      (isTrunkNumber (128 : Byte).toNat = true ∧ s.trunk? (128 : Byte).toNat = none) ∧
      ((withTrunk full (pallet .loaded)).trunk? 17 = some full ∧
        ∃ b ∈ full.window, b.standing = .loaded) ∧
      (s.trunk? 17 = some trunk17 ∧ trunk17.placement = .unplaced ∧ trunk17.window = [] ∧
        ∀ e ∈ s.pallets, ¬(e.2.state = .misloaded ∧ e.2.location = .trailer 17)) := by decide

/-- Door 12 in use with no trunk, trunk 17 unplaced. -/
def freeDoor : State :=
  (withTrunk trunk17 (pallet .held)).modDoor 12 fun d => { d with slots := 10, reserve := 2 }

/-- The same with trunk 17 its next trunk. -/
def nextDoor : State :=
  (withTrunk { trunk17 with placement := .next 12 } (pallet .held)).modDoor 12 fun d =>
    { d with slots := 10, reserve := 2, next := some 17, nextPending := true }

/-- Trunk 17 active at door 12, trunk 18 its next one. -/
def activeAndNext (r : Trunk) (p : Pallet) : State :=
  let s := (atDoor r p).modDoor 12 fun d => { d with next := some 18, nextPending := true }
  { s with trunks := s.trunks.put 18 { trunk17 with placement := .next 12 } }

/-- Door 12 handed over from trunk 17 to trunk 18. -/
def handedOver (s : State) : State :=
  (((s.modTrunk 17 fun r => { r with placement := .unplaced }).modDoor 12 fun x =>
    { x with active := x.next, next := none, nextPending := false, hold := false }).modTrunk 18
      fun r => { r with placement := .active 12 }).reportBalanceHold

theorem witness_drop_placed_trunk :
    let s := activeAndNext trunk17 (pallet .held)
    let left := ((nextDoor).modTrunk 17 fun r => { r with placement := .unplaced }).modDoor 12 fun x =>
      { x with next := none, nextPending := false }
    let free (s : State) : Prop :=
      ∀ e ∈ s.pallets, ¬(e.2.state = .misloaded ∧ e.2.location = .trailer 17)
    ((atDoor trunk17 (pallet .held)).trunk? 17 = some { trunk17 with placement := .active 12 } ∧
        ((atDoor trunk17 (pallet .held)).door 12).next = none) ∧
      (s.trunk? 17 = some { trunk17 with placement := .active 12 } ∧ trunk17.window = [] ∧
        (s.door 12).next = some 18 ∧ 18 ≠ 17 ∧ free s ∧ (handedOver s).passAlone 12 (some 18) ∧
        ((handedOver s).afterPass 12).attemptEnds 18) ∧
      (nextDoor.trunk? 17 = some { trunk17 with placement := .next 12 } ∧ free nextDoor ∧
        left.passAlone 12 none) :=
  ⟨by decide, ⟨by decide, rfl, by decide, by decide, by decide, alone (by decide),
    ends (r := _) rfl rfl (by decide)⟩, by decide, by decide, alone (by decide)⟩

theorem witness_drop_trunk_rebooks :
    let s := withTrunk bookedTrunk { booked with depot := some 42 }
    let rows : State := { s with
      bank0 := { rows := [(42, [17, 18])] }, trunks := s.trunks.put 18 trunk17 }
    (∀ b ∈ bookedTrunk.window, b.standing ≠ .loaded) ∧ bookedTrunk.placement = .unplaced ∧
      bookedTrunk.window = [booking .unreleased] ∧ s.pallet? good = some booked ∧
      (booked.label = good ∧ booked.state = .held ∧ booked.move = none ∧ booked.claimDoor = none) ∧
      (s.bank s.active).rowFor booked.cls 42 = none ∧
      s.choose { booked with excluded := [17] } [] = none ∧
      (rows.pallet? good = some booked ∧ (rows.bank rows.active).rowFor booked.cls 42 =
          some ([17, 18], false) ∧
        rows.choose { booked with excluded := [17] } [17, 18] =
          some { trunk := 18, drop := .a, index := 2, spill := false } ∧
        rows.trunk? 18 = some trunk17 ∧ trunk17.placement = .unplaced) := by decide

theorem witness_place :
    freeDoor.restart = none ∧ ((0 : Byte) ≠ 1 ∧ (2 : Byte) ≠ 1 ∧ (2 : Byte) ≠ 0) ∧
      isDoorNumber (49 : Byte).toNat = false ∧
      (isTrunkNumber (128 : Byte).toNat = true ∧ isDoorNumber (48 : Byte).toNat = true ∧
        freeDoor.trunk? (128 : Byte).toNat = none) ∧
      (freeDoor.trunk? 17 = some trunk17 ∧ (freeDoor.door 48).slots = 0) ∧
      ({ trunk17 with placement := .next 12 } : Trunk).door? = some 12 ∧
      ((freeDoor.door 12).slots ≠ 0 ∧ trunk17.door? = none ∧ (freeDoor.door 12).active = none ∧
        (freeDoor.door 12).next = none ∧ trunk17.window = [] ∧ trunk17.held = []) ∧
      ((nextDoor.door 12).next = some 17 ∧ (nextDoor.door 12).active = none) ∧
      (((atDoor trunk17 (pallet .held)).door 12).active = some 17 ∧
        ((atDoor trunk17 (pallet .held)).door 12).next ≠ some 17) := by decide

theorem witness_place_with_bookings :
    let s := (withTrunk bookedTrunk booked).modDoor 12 fun d => { d with slots := 10, reserve := 2 }
    let active := (s.modTrunk 17 fun r => { r with placement := .active 12 }).modDoor 12 fun x =>
      { x with active := some 17 }
    let asNext (s : State) : State := (s.modTrunk 17 fun r => { r with placement := .next 12 }).modDoor 12
      fun x => { x with next := some 17, nextPending := true }
    let other (p : Pallet) : State :=
      let s := (withTrunk bookedTrunk p).modDoor 12 fun d => { d with
        slots := 10, reserve := 2, next := some 18, nextPending := true }
      { s with trunks := s.trunks.put 18 { trunk17 with placement := .next 12 } }
    let replaced := asNext ((other booked).modTrunk 18 fun r => { r with placement := .unplaced })
    ((s.door 12).slots ≠ 0 ∧ bookedTrunk.door? = none ∧ (s.door 12).active = none ∧
        active.passAlone 12 (some 17) ∧ (active.afterPass 12).attemptEnds 17) ∧
      ((s.door 12).next = none ∧ (asNext s).passAlone 12 none) ∧
      (((other booked).door 12).next = some 18 ∧ ((other booked).door 12).active = none ∧
        ¬(∃ e ∈ (other booked).pallets,
          e.2.trunk = some 18 ∧ (e.2.claimDoor = some 12 ∨ e.2.location = .lane 12)) ∧
        replaced.passAlone 12 none) ∧
      ∃ e ∈ (other { staged with trunk := some 18 }).pallets,
        e.2.trunk = some 18 ∧ (e.2.claimDoor = some 12 ∨ e.2.location = .lane 12) :=
  ⟨⟨by decide, rfl, by decide, alone (by decide), ends (r := _) rfl rfl (by decide)⟩,
    ⟨by decide, alone (by decide)⟩, ⟨by decide, by decide, by decide, alone (by decide)⟩, by decide⟩

/-- Trunk 17 with its one booking LOADED. -/
def loadedTrunk : Trunk := { trunk17 with window := [booking .loaded] }

theorem witness_depart :
    let s := atDoor loadedTrunk (pallet .loaded)
    s.restart = none ∧ isTrunkNumber (0 : Byte).toNat = false ∧
      (isTrunkNumber (18 : Byte).toNat = true ∧ s.trunk? (18 : Byte).toNat = none) ∧
      (freeDoor.trunk? 17 = some trunk17 ∧ trunk17.placement = .unplaced) ∧
      (s.trunk? 17 = some { loadedTrunk with placement := .active 12 } ∧
        (∀ b ∈ loadedTrunk.window, b.standing = .loaded) ∧ (s.door 12).next = none) := by decide

theorem witness_depart_hands_over :
    let s := activeAndNext loadedTrunk (pallet .loaded)
    let freed := [good].foldl State.freeRecord s
    let front : Trunk := { loadedTrunk with
      window := [booking .unreleased, { booking .loaded with label := 0 }], bookedQuarters := 8 }
    (s.trunk? 17 = some { loadedTrunk with placement := .active 12 } ∧
        (∀ b ∈ loadedTrunk.window, b.standing = .loaded) ∧ (s.door 12).next = some 18 ∧
        (handedOver freed).passAlone 12 (some 18) ∧
        ((handedOver freed).afterPass 12).attemptEnds 18) ∧
      ((atDoor front booked).trunk? 17 = some { front with placement := .active 12 } ∧
        front.window = booking .unreleased :: [{ booking .loaded with label := 0 }] ∧
        (∀ x ∈ [({ booking .loaded with label := 0 } : Booking)],
          x.standing = .loaded ∧ x.label ≠ good) ∧ front.dropB = none ∧
        (atDoor front booked).pallet? good = some booked ∧ booked.state = .held ∧ booked.move = none ∧
        booked.claimDoor = none ∧
        ((atDoor front booked).bank (atDoor front booked).active).rowFor booked.cls 42 = none ∧
        ((atDoor front booked).door 12).next = none) :=
  ⟨⟨by decide, by decide, by decide, alone (by decide), ends (r := _) rfl rfl (by decide)⟩, by decide⟩

/-- Trunk 17 active at door 12 and its next trunk 18 full, with a STAGED booking that the hand-over's
attempt flushes; the one row of its depot names trunk 17. -/
def rebookedOnto : State :=
  let s := (atDoor trunk17 { staged with trunk := some 18 }).modDoor 12 fun d =>
    { d with next := some 18, nextPending := true, claims := 1 }
  { s with
    bank0 := { rows := [(42, [17])] }
    trunks := s.trunks.put 18 { trunk17 with
      placement := .next 12, window := [booking .unreleased], bookedQuarters := 4, bookedKg := 400
      openPosition := some 19, fill := 4 } }

/-- What a departure of trunk 17 leaves: no record of it, and the pallet off every trunk. -/
def offBoth (o : Host.Outcome State Fault Refusal) : Bool :=
  match o with
  | .next t => (t.trunk? 17).isNone && (t.pallet? good).any fun p =>
      p.state == .exception && p.trunk.isNone && p.drop.isNone && p.excluded == [18, 17]
  | _ => false

/-- R61 and R62: a booking that joins the leaving trunk leaves it by a flush (log 40). -/
theorem test_depart_flushes_what_joins :
    offBoth (exec (.depart 17) rebookedOnto) = true ∧
      offBoth (exec (.dropTrunk 17) rebookedOnto) = true := by decide

theorem witness_read_trunk :
    let s := withTrunk bookedTrunk booked
    s.restart = none ∧ isTrunkNumber (0 : Byte).toNat = false ∧ 127 < (128 : Byte).toNat ∧
      (isTrunkNumber (128 : Byte).toNat = true ∧ (127 : Byte).toNat ≤ 127 ∧
        s.trunk? (128 : Byte).toNat = none ∧ s.recordFits (s.isDue (.readTrunk 128 127)) 42 = true) ∧
      (s.trunk? 17 = some bookedTrunk ∧
        s.recordFits (s.isDue (.readTrunk 17 0)) (42 + 16 * min 16 (1 - 0)) = true) := by decide

/-! ### Doors, movers, pallets, notices and settings -/

theorem witness_set_door :
    freeDoor.restart = none ∧
      (isDoorNumber (48 : Byte).toNat = true ∧ (24 : Byte).toNat ≤ 24 ∧ (23 : Byte).toNat ≤ 23 ∧
        1 ≤ (4 : Byte).toNat ∧ (4 : Byte).toNat ≤ 4 ∧ (23 : Byte).toNat < (24 : Byte).toNat) ∧
      ¬(24 : Byte).toNat < (24 : Byte).toNat ∧
      ((atDoor trunk17 (pallet .held)).door 12).active.isSome ∧
      ((freeDoor.door 12).active = none ∧ (freeDoor.door 12).next = none ∧
        ¬(8 : Byte).toNat < (freeDoor.door 12).claims ∧
        ({ freeDoor.door 12 with slots := (8 : Byte).toNat } : Door) ≠ freeDoor.door 12) ∧
      { freeDoor.door 12 with slots := (10 : Byte).toNat } = freeDoor.door 12 := by decide

/-- Trunk 17 active at door 12, whose lane holds its pallet HELD with its claim there. -/
def lanePlaced (r : Trunk) (p : Pallet) : State :=
  (atDoor { r with held := [good] } { p with location := .lane 12, state := .held }).modDoor 12 fun d =>
    { d with claims := 1 }

theorem witness_set_door_passes :
    let y (s : State) : State := s.modDoor 12 fun x => { x with reserve := 3 }
    let g := (y (atDoor bookedTrunk booked)).grantPass 12
    let h := (y (lanePlaced { bookedTrunk with phase := .due } staged)).grantPass 12
    let away := atDoor bookedTrunk { booked with location := .lane 13, claimDoor := some 13 }
    let k := (y away).grantPass 12
    (g.state.queue 12 = [good] ∧ g.staged = false ∧ g.doors = []) ∧
      (h.staged = true ∧ h.doors = [] ∧ (h.state.door 12).active = some 17 ∧
        h.state.attemptEnds 17) ∧
      (k.staged = false ∧ k.doors = [13] ∧ k.state.passesAlone none k.doors) :=
  ⟨by decide, ⟨by decide, rfl, by decide, fun _ _ hr _ => by left; cases hr; rfl⟩, by decide,
    by decide, alone (by decide), trivial⟩

theorem witness_door_and_mover_reads :
    (State.reset.takes (.readDoor 48) 11 ∧ 48 < (49 : Byte).toNat ∧ 1 ≤ (48 : Byte).toNat ∧
        (48 : Byte).toNat ≤ 48) ∧
      (State.reset.takes (.readMover 4) 20 ∧ 32 < (33 : Byte).toNat ∧ 1 ≤ (4 : Byte).toNat ∧
        (32 : Byte).toNat ≤ 32) ∧
      ((4 : Byte).toNat ∉ State.reset.freeList ∧ 4 ∈ [9, 4]) :=
  ⟨⟨⟨rfl, by decide⟩, by decide⟩, ⟨⟨rfl, by decide⟩, by decide⟩, by decide⟩

theorem witness_forced_release :
    let r : Trunk := { bookedTrunk with held := [], placement := .active 12 }
    let s := atDoor r staged
    let x := r.project class3 400 0
    let held := s.modDoor 12 fun d => { d with hold := true }
    -- the last drop-B booking, released from a held zone
    let b : Booking := { booking .unreleased with drop := .b }
    let far : Trunk := { r with dropA := 43, dropB := some 42, window := [b] }
    let h := (atDoor far { staged with drop := some .b }).modDoor 12 fun d => { d with hold := true }
    let freed := ((h.releaseBooking 17 12 b (.fresh 0) 0 x).modPallet good fun q =>
      { q with flags := { q.flags with forced := true } }).reportBalanceHold
    s.takes (.forceRelease 12) 16 ∧ isDoorNumber (0 : Byte).toNat = false ∧
      (isDoorNumber (48 : Byte).toNat = true ∧ (s.door 48).active = none) ∧
      ((s.door 12).active = some 17 ∧ s.trunk? 17 = some r) ∧
      (s.door 12).depth ≤ { r with inFlight := 2 }.inFlight ∧
      (r.phase ≠ .due ∧ r.inFlight < (s.door 12).depth) ∧
      (held.firstCandidate r 12 [] (booking .unreleased) [] ∧
        (r.fit (held.classOf r).rows 4 400).target? = some 0 ∧
        (r.setStanding good .released).loadingDrop = r.loadingDrop) ∧
      (h.firstCandidate far 12 [] b [] ∧ (far.setStanding good .released).loadingDrop ≠ far.loadingDrop ∧
        freed.passAlone 12 none) :=
  ⟨⟨rfl, by decide⟩, by decide, by decide, by decide, by decide, by decide,
    ⟨⟨rfl, by decide, by decide, nofun, by decide⟩, by decide⟩,
    ⟨rfl, by decide, by decide, nofun, by decide⟩, by decide, alone (by decide)⟩

theorem witness_forced_release_of_a_later_one_or_none :
    let p : Booking := { booking .unreleased with label := 0, seq := 2 }
    let r : Trunk := { trunk17 with window := [p, booking .unreleased], placement := .active 12 }
    let s := atDoor r staged
    let none' := atDoor bookedTrunk booked
    let full : Trunk := { bookedTrunk with openPosition := some 19, fill := 4 }
    let f := atDoor full staged
    let flushed := ((((f.modTrunk 17 fun r => { r with
        window := [], bookedQuarters := 0, bookedKg := 0, held := [] }).modPallet good fun q => { q with
          trunk := none, drop := none, position := none, excluded := [17] }).raise .flush
            (.trunk 17)).modPallet good fun q =>
              { q with state := .exception, reason := some .rebookFailed }).raise .unrouted (.label good)
    let v := (flushed.releaseClaim good).makeMove good .rework (.lane 12) .rework 0
    (s.trunk? 17 = some r ∧ s.firstCandidate r 12 [p] (booking .unreleased) []) ∧
      (bookedTrunk.window.length ≤ 128 ∧
        ∀ b ∈ bookedTrunk.window, none'.isCandidate bookedTrunk 12 b = false) ∧
      ((f.trunk? 17 = some { full with placement := .active 12 } ∧ full.window = [booking .unreleased] ∧
          full.loadingDrop = .a ∧ f.isCandidate full 12 (booking .unreleased) = true ∧
          (full.fit class3.rows 4 400).target? = none ∧ f.pallet? good = some staged ∧
          staged.move = none ∧ (f.bank f.active).rowFor staged.cls 42 = none) ∧
        v.passAlone 12 none) :=
  ⟨⟨rfl, rfl, by decide, by decide, by decide, by decide⟩, by decide, by decide, alone (by decide)⟩

theorem witness_release_writes :
    let s := atDoor bookedTrunk staged
    1 ≤ 12 ∧ 12 ≤ 48 ∧ s.trunk? 17 = some { bookedTrunk with placement := .active 12 } ∧
      s.pallet? good = some staged ∧ staged.label = good ∧
      (Fit.fresh 19 = .fresh 19 ∨ Fit.fresh 19 = .stack 19) ∧
      (Fit.stack 0 = .fresh 0 ∨ Fit.stack 0 = .stack 0) := by decide

theorem witness_pallet_read_and_removed :
    (State.reset.takes (.readPallet good) 52 ∧ ∀ i, i < 12 → good.toNat / 16 ^ i % 16 ≤ 9) ∧
      ¬(0xA47003159269 : Label).toNat / 16 ^ 11 % 16 ≤ 9 ∧ State.reset.pallet? good = none ∧
      ((withPallet (pallet .held)).restart = none ∧
        (withPallet (pallet .held)).pallet? good = some (pallet .held) ∧
        (pallet .held).state ≠ .exception ∧ (pallet .held).state ≠ .atRework) ∧
      ((withPallet (pallet .atRework)).pallet? good = some (pallet .atRework) ∧
        (pallet .atRework).state = .atRework ∧ (withPallet (pallet .atRework)).pallets.wf = true) :=
  ⟨⟨⟨rfl, by decide⟩, by decide⟩, by decide⟩

theorem witness_notice_requests :
    State.reset.restart = none ∧
      ¬((2 : Byte).toNat ≤ 1 ∧ (0 : Byte).toNat ≤ 1 ∧ (0 : Byte).toNat ≤ 1 ∧ (2 : Byte).toNat ≤ 2) ∧
      ((1 : Byte).toNat ≤ 1 ∧ (2 : Byte).toNat ≤ 2) ∧ 1 < (2 : Byte).toNat ∧
      ((0 : Byte).toNat ≤ 1 ∧ (1 : Byte).toNat ≤ 1 ∧ (0 : Byte) = 0 ∧ (1 : Byte) = 1) := by decide

theorem witness_raised_condition :
    let s (raw enable : Bool) : State := State.reset.modCondition .flush fun c =>
      { c with raw := raw, enableA := enable }
    ((s true false).condition .flush).raw = true ∧
      (((s false false).condition .flush).raw = false ∧
        (((s false false).condition .flush).enableA || ((s false false).condition .flush).enableB ||
          (s false false).keepAll) = false) ∧
      (((s false true).condition .flush).raw = false ∧
        ((s false true).condition .flush).enableA = true ∧
        ((s false true).condition .flush).status = false) ∧ State.reset.restart = none := by decide

theorem witness_limits_outputs_and_reads :
    (State.reset.restart = none ∧ ¬(61 : Byte).toNat ≤ 60 ∧
        (1 ≤ (1 : Byte).toNat ∧ (60 : Byte).toNat ≤ 60 ∧ 5 ≤ (5 : Byte).toNat ∧
          (120 : Byte).toNat ≤ 120 ∧ 60 ≤ (60 : BitVec 16).toNat ∧ (1800 : BitVec 16).toNat ≤ 1800 ∧
          10 ≤ (10 : BitVec 16).toNat ∧ (300 : BitVec 16).toNat ≤ 300 ∧
          (3600 : BitVec 16).toNat ≤ 3600 ∧ 256 ≤ (256 : BitVec 16).toNat ∧
          (4096 : BitVec 16).toNat ≤ 4096)) ∧
      State.reset.takes .readNotices 207 ∧ State.reset.takes .readSettings 25 :=
  ⟨by decide, ⟨rfl, by decide⟩, rfl, by decide⟩

theorem witness_restart_ends_its_list :
    let s := withFrame false [(0x4F, [0]), (0x12, [])]
    let t : State := { withFrame false [(0x4F, [1])] with yard := { sending := some (.pass []) } }
    ((2 : Byte) ≠ 1 ∧ (2 : Byte) ≠ 0) ∧
      (State.reset.restart = none ∧ State.reset.isDue (.restartFull 0) = false) ∧
      (s.isDue (.restartFull 0) = true ∧ s.dueFrame = some (frame false [(0x4F, [0]), (0x12, [])]) ∧
        s.yard.sending = none) ∧
      (t.isDue .restartFloor = true ∧ t.dueFrame = some (frame false [(0x4F, [1])]) ∧
        t.yard.sending.isSome) := by decide

/-! ### Computations and arbitration -/

theorem witness_fit_and_balance :
    let half : Trunk := { trunk17 with openPosition := some 19, fill := 3, topWeight := 180 }
    let full : Trunk := { half with fill := 4 }
    (∀ p, half.openPosition = some p → 0 < half.fill ∧ half.fill + 1 ≤ 4 ∧ 180 ≤ half.topWeight) ∧
      (∀ p, full.openPosition = some p →
        ¬(0 < full.fill ∧ full.fill + 1 ≤ 4 ∧ 180 ≤ full.topWeight)) ∧
      (19 < 2 * 10 ∧ 2 * 10 ≤ 20) ∧ 0 < class3.axle := by
  refine ⟨fun p _ => by decide, fun p _ => by decide, by decide, by decide⟩

theorem witness_chosen_trunk :
    routed.choose (pallet .held) [99, 17] = some { trunk := 17, drop := .a, index := 2, spill := false } ∧
      routed.choose (pallet .held) [99] = none := by
  decide

theorem witness_booking_keeps_order :
    let b : Booking := { booking .unreleased with drop := .b }
    [b, booking .unreleased].Pairwise (fun x y => ¬(x.drop = .a ∧ y.drop = .b)) ∧
      ([1, 2, 3, 4].length ≤ 4 ∧ [1, 2, 3, 4].Nodup) ∧ ([1, 2, 3].length < 4 ∧ 5 ∉ [1, 2, 3]) ∧
      ([1, 2, 3, 4].length = 4 ∧ 5 ∉ [1, 2, 3, 4]) := by decide

theorem witness_grant_pass :
    ((queued [.pinReset 1 2]).Safe ∧ (queued [.pinReset 1 2]).DoorsAgree ∧
        ∃ t, step (queued [.pinReset 1 2]) = .next t) ∧
      ∀ e, (State.reset.door e).claims ≤ (State.reset.door e).slots :=
  ⟨⟨queued_safe _, queued_agrees _, _, rfl⟩, (queued_agrees []).claims⟩

theorem witness_grant_claim :
    let away : Pallet := { booked with location := .lane 13, claimDoor := some 13 }
    let carried : Pallet := { booked with move := some (move .accepted) }
    let at? (p : Pallet) : Prop := (withTrunk bookedTrunk p).pallet? good = some p
    (at? { staged with claimDoor := none } ∧ staged.state = .staged) ∧
      (at? booked ∧ booked.state = .held ∧ booked.trunk = some 17 ∧ booked.location = .apron 1 ∧
        booked.move.any (·.state = .accepted) = false) ∧
      (at? away ∧ away.location = .lane 13 ∧ 13 ≠ 12 ∧ away.claimDoor = some 13) ∧
      (at? carried ∧ carried.move.any (·.state = .accepted) = true) ∧
      (withTrunk bookedTrunk booked).trunk? 17 = some bookedTrunk := by decide

theorem witness_door_urgency :
    (State.reset.door 12).active = none ∧ ((atDoor trunk17 (pallet .held)).door 12).active = some 17 ∧
      (atDoor trunk17 (pallet .held)).trunk? 17 = some { trunk17 with placement := .active 12 } := by
  decide

/-- A queued move at door 12 and a mover that waits for work. -/
theorem witness_grant :
    let p : Pallet := { pallet .laneBound with claimDoor := some 12, move := some (move .queued) }
    let s (m : Nat) : State := { (withPallet p).setQueue 12 [good] with freeList := [m] }
    ((s 32).freeList = [32] ∧ 32 ∉ ([] : List Nat)) ∧ (s 32).chooseQueue = some 12 ∧
      ((s 32).queue 12 = [good] ∧ good ∉ ([] : List Label)) ∧ (s 32).pallet? good = some p ∧
      p.label = good ∧ p.move = some (move .queued) ∧ State.reset.freeList = [] := by decide

theorem witness_grant_attempt :
    State.reset.rotationWhole ∧ (queued [.pinReset 1 2]).rotationWhole ∧
      (queued [.pinReset 1 2]).NothingToGrant ∧ ∃ t, step (queued [.pinReset 1 2]) = .next t :=
  ⟨⟨.refl _, .refl _⟩, ⟨.refl _, .refl _⟩, .inl rfl, _, rfl⟩

end Sys2Proof.Tests
end

/-! Scans that the scan decoder answers at once (R1, R2): the half-bytes that the digit check reads, one by one, the place table, and the two refusals of a scan. -/

namespace Sys2Proof.Machine

/-! ## The digit check, half-byte by half-byte (R2) -/

/-- Half-byte `i` of a label, the first (highest) one at 0. -/
def labelDigit (l : Label) (i : Nat) : Nat := l.toNat / 16 ^ (11 - i) % 16

/-- Half-byte `i` of a zone code, the first (highest) one at 0. -/
def zoneDigit (z : ZoneCode) (i : Nat) : Nat := z.toNat / 16 ^ (5 - i) % 16

/-- The weighted sum of a label's first eleven digits (R2). -/
def weightedSum (d : Nat → Nat) : Nat :=
  d 0 + 3 * d 1 + 7 * d 2 + d 3 + 3 * d 4 + 7 * d 5 + d 6 + 3 * d 7 + 7 * d 8 + d 9 + 3 * d 10

theorem nibbles_eq_map (x n : Nat) :
    nibbles x n = (List.range n).map fun i => x / 16 ^ (n - 1 - i) % 16 := by
  induction n with
  | zero => rfl
  | succ n ih =>
    rw [nibbles, ih, List.range_succ_eq_map, List.map_cons, List.map_map]
    refine congrArg₂ _ (by simp) (List.map_congr_left fun i _ => ?_)
    simp only [Function.comp_apply, show n + 1 - 1 - i.succ = n - 1 - i by omega]

theorem labelDigits_eq_map (l : Label) : labelDigits l = (List.range 12).map (labelDigit l) :=
  nibbles_eq_map l.toNat 12

theorem isDecimal_map_range (n : Nat) (d : Nat → Nat) :
    isDecimal ((List.range n).map d) = true ↔ ∀ i < n, d i ≤ 9 := by
  simp [isDecimal]

theorem isDecimal_labelDigits (l : Label) :
    isDecimal (labelDigits l) = true ↔ ∀ i < 12, labelDigit l i ≤ 9 := by
  rw [labelDigits_eq_map, isDecimal_map_range]

theorem zoneValue_isSome (z : ZoneCode) :
    (zoneValue z).isSome = true ↔ ∀ i < 6, zoneDigit z i ≤ 9 := by
  have hz : nibbles z.toNat 6 = (List.range 6).map (zoneDigit z) := nibbles_eq_map z.toNat 6
  rw [← isDecimal_map_range, zoneValue, hz]
  cases isDecimal ((List.range 6).map (zoneDigit z)) <;> simp

theorem labelDigits_getD_last (l : Label) : (labelDigits l).getD 11 0 = labelDigit l 11 := by
  rw [labelDigits_eq_map]
  rfl

theorem checkDigit_labelDigits (l : Label) :
    checkDigit ((labelDigits l).take 11) = (10 - weightedSum (labelDigit l) % 10) % 10 := by
  have hsum : (List.zipWith (· * ·) ((labelDigits l).take 11) checkWeights).sum =
      weightedSum (labelDigit l) := by
    simp only [labelDigits_eq_map, List.range_eq_range', List.range', List.map_cons, List.map_nil,
      List.take, checkWeights, List.zipWith, List.sum_cons, List.sum_nil, weightedSum, Nat.reduceAdd]
    omega
  rw [checkDigit, hsum]

/-- The digit check passes exactly when every half-byte is a decimal digit and the label's twelfth
digit is the check digit of the others (R2). -/
theorem digitsPass_iff (scan : ScanFields) :
    digitsPass scan = true ↔
      (∀ i < 12, labelDigit scan.label i ≤ 9) ∧ (∀ i < 6, zoneDigit scan.zone i ≤ 9) ∧
        labelDigit scan.label 11 = (10 - weightedSum (labelDigit scan.label) % 10) % 10 := by
  rw [digitsPass, Bool.and_eq_true, Bool.and_eq_true, isDecimal_labelDigits, zoneValue_isSome,
    beq_iff_eq, labelDigits_getD_last, checkDigit_labelDigits, and_assoc]

theorem digitsPass_eq_false_iff (scan : ScanFields) :
    digitsPass scan = false ↔
      (∃ i, i < 12 ∧ 9 < labelDigit scan.label i) ∨ (∃ i, i < 6 ∧ 9 < zoneDigit scan.zone i) ∨
        labelDigit scan.label 11 ≠ (10 - weightedSum (labelDigit scan.label) % 10) % 10 := by
  rw [← Bool.not_eq_true, digitsPass_iff, not_and_or, not_and_or]
  simp only [not_forall, not_le, exists_prop]

/-! ## The place table (R1) -/

theorem placeInRange_intake_eq_false (n : Nat) : placeInRange .intake n = false ↔ 32 < n := by
  simp [placeInRange]

theorem placeInRange_lane_eq_false (n : Nat) :
    placeInRange .lane n = false ↔ n = 0 ∨ 48 < n := by
  simp only [placeInRange, Bool.and_eq_false_iff, decide_eq_false_iff_not]
  omega

theorem placeInRange_load_eq_lane (n : Nat) : placeInRange .load n = placeInRange .lane n := rfl

theorem placeInRange_rework_eq_false (n : Nat) : placeInRange .rework n = false ↔ n ≠ 0 := by
  simp [placeInRange]

theorem placeKindOf_zero : placeKindOf 0 = some .intake := rfl

theorem placeKindOf_one : placeKindOf 1 = some .lane := rfl

theorem placeKindOf_two : placeKindOf 2 = some .load := rfl

theorem placeKindOf_three : placeKindOf 3 = some .rework := rfl

theorem placeKindOf_eq_none {kind : Byte} (h : 4 ≤ kind.toNat) : placeKindOf kind = none := by
  unfold placeKindOf
  split
  case h_5 => rfl
  all_goals omega

/-! ## The scan commands

Each is `takeScan` with its place kind's code (R7). -/

section
variable (src : Address) (scan : ScanFields) (s : State)

theorem exec_intakeScan : exec (.intakeScan src scan) s = takeScan src 0 scan s := rfl

theorem exec_laneScan : exec (.laneScan src scan) s = takeScan src 1 scan s := rfl

theorem exec_loadScan : exec (.loadScan src scan) s = takeScan src 2 scan s := rfl

theorem exec_reworkScan : exec (.reworkScan src scan) s = takeScan src 3 scan s := rfl

theorem exec_badPlaceKindScan (kind : Byte) :
    exec (.badPlaceKindScan src kind scan) s = takeScan src kind scan s := rfl

end

/-! ## The two refusals of a scan -/

/-- A scan whose kind code is outside the four, or whose place number is outside its kind's range, is
answered BAD_PLACE before its digits are looked at (R1). -/
theorem takeScan_badPlace {s : State} {src : Address} {kind : Byte} {scan : ScanFields}
    (hr : s.restart = none)
    (hp : ∀ k, placeKindOf kind = some k → placeInRange k scan.number.toNat = false) :
    takeScan src kind scan s =
      .next (s.sendVerdict src { echoKind := kind, echo := scan, result := .badPlace }) := by
  cases hk : placeKindOf kind with
  | none => simp [takeScan, State.restartPending, hr, hk]
  | some k => simp [takeScan, State.restartPending, hr, hk, hp k hk]

/-- A scan in place that fails the digit check is answered BAD_LABEL (R2). -/
theorem takeScan_badLabel {s : State} {src : Address} {kind : Byte} {k : PlaceKind}
    {scan : ScanFields} (hr : s.restart = none) (hk : placeKindOf kind = some k)
    (hp : placeInRange k scan.number.toNat = true) (hd : digitsPass scan = false) :
    takeScan src kind scan s =
      .next (s.sendVerdict src { echoKind := kind, echo := scan, result := .badLabel }) := by
  simp [takeScan, State.restartPending, hr, hk, hp, hd]

/-- The case of `takeScan_badPlace` where the kind code is one of the four. -/
theorem takeScan_outOfRange {s : State} {src : Address} {kind : Byte} {k : PlaceKind}
    {scan : ScanFields} (hr : s.restart = none) (hk : placeKindOf kind = some k)
    (hp : placeInRange k scan.number.toNat = false) :
    takeScan src kind scan s =
      .next (s.sendVerdict src { echoKind := kind, echo := scan, result := .badPlace }) :=
  takeScan_badPlace hr fun _ hk' => Option.some.inj (hk.symm.trans hk') ▸ hp

/-! ## The statements -/

/-- Settles O16: each number outside its kind's range, and each code outside the four, is a case of
`takeScan_badPlace`. -/
theorem scanOutOfPlaceIsBadPlace : Obligations.ScanOutOfPlaceIsBadPlace := by
  intro s src scan hr
  refine ⟨fun hn => ?intake, fun hn => ?laneAndLoad, fun hn => ?rework, fun kind hk => ?noKind⟩
  case intake =>
    have hp := (placeInRange_intake_eq_false _).2 hn
    exact (exec_intakeScan ..).trans (takeScan_outOfRange hr placeKindOf_zero hp)
  case laneAndLoad =>
    have hp : placeInRange .lane scan.number.toNat = false :=
      (placeInRange_lane_eq_false _).2 (hn.imp_left fun h0 => by rw [h0]; rfl)
    exact ⟨(exec_laneScan ..).trans (takeScan_outOfRange hr placeKindOf_one hp),
      (exec_loadScan ..).trans (takeScan_outOfRange hr placeKindOf_two
        ((placeInRange_load_eq_lane _).trans hp))⟩
  case rework =>
    have h0 : scan.number.toNat ≠ 0 := fun h => hn (BitVec.eq_of_toNat_eq h)
    have hp := (placeInRange_rework_eq_false _).2 h0
    exact (exec_reworkScan ..).trans (takeScan_outOfRange hr placeKindOf_three hp)
  case noKind =>
    have hnone := placeKindOf_eq_none hk
    exact (exec_badPlaceKindScan ..).trans
      (takeScan_badPlace hr fun k h => absurd (hnone.symm.trans h) (Option.some_ne_none k).symm)

/-- Settles O17: the three ways to fail are those of `digitsPass_eq_false_iff`, and each place
kind's scan command is `takeScan` with that kind's code. -/
theorem scanWithWrongDigitsIsBadLabel : Obligations.ScanWithWrongDigitsIsBadLabel := by
  intro s src k scan hr hp d sum hbad
  have hd : digitsPass scan = false := (digitsPass_eq_false_iff scan).2 hbad
  cases k with
  | intake => exact (exec_intakeScan ..).trans (takeScan_badLabel hr placeKindOf_zero hp hd)
  | lane => exact (exec_laneScan ..).trans (takeScan_badLabel hr placeKindOf_one hp hd)
  | load => exact (exec_loadScan ..).trans (takeScan_badLabel hr placeKindOf_two hp hd)
  | rework => exact (exec_reworkScan ..).trans (takeScan_badLabel hr placeKindOf_three hp hd)

end Sys2Proof.Machine

/-! The requests that write a route bank (R29, R33 to R35): where PUT_ZONE puts a new entry, what it finds for an entry in range, and the bank requests that are always DONE. -/

namespace Sys2Proof.Machine

/-! ## The place of a new zone entry (R29 step 5) -/

/-- Entries of which no two share a zone stand in ascending order of their first zones. -/
theorem Bank.within.firsts {b : Bank} (h : b.within) :
    b.zones.Pairwise fun e y => e.first < y.first :=
  h.apart.imp_of_mem fun he _ hlt => (h.ranges _ he).trans_lt hlt

/-- Among ascending entries a new one parts the lower from the higher. -/
theorem insertZone_eq_filter {zs : List ZoneEntry} {x : ZoneEntry}
    (hs : zs.Pairwise fun e y => e.first < y.first) (hx : ∀ e ∈ zs, e.first ≠ x.first) :
    insertZone zs x = zs.filter (·.first < x.first) ++ [x] ++ zs.filter (x.first < ·.first) := by
  induction zs with
  | nil => rfl
  | cons e zs ih =>
    obtain ⟨he, hs⟩ := List.pairwise_cons.1 hs
    rw [insertZone]
    by_cases hlt : e.first < x.first
    · have hrest := ih hs fun y hy => hx y (List.mem_cons_of_mem e hy)
      simp [hlt, hlt.not_gt, hrest]
    · have hxe : x.first < e.first := (not_lt.1 hlt).lt_of_ne' (hx e List.mem_cons_self)
      have habove : ∀ y ∈ e :: zs, x.first < y.first :=
        List.forall_mem_cons.2 ⟨hxe, fun y hy => hxe.trans (he y hy)⟩
      have hlow : (e :: zs).filter (·.first < x.first) = [] :=
        List.filter_eq_nil_iff.2 fun y hy => by simp [(habove y hy).le]
      have hhigh : (e :: zs).filter (x.first < ·.first) = e :: zs :=
        List.filter_eq_self.2 fun y hy => by simp [habove y hy]
      rw [if_neg hlt, hlow, hhigh]
      rfl

theorem ZoneEntry.meets_iff (e : ZoneEntry) (f l : Nat) :
    e.meets f l = true ↔ e.first ≤ l ∧ f ≤ e.last := by
  simp [ZoneEntry.meets]

/-! ## What PUT_ZONE finds (R29) -/

theorem isDepot_iff (n : Nat) : isDepot n = true ↔ 1 ≤ n ∧ n ≤ 250 := by
  simp [isDepot]

/-- Steps 2 to 5 of R29 for an entry whose values are in range. -/
def putEntry (x : ZoneEntry) (s : State) : Taken :=
  if s.standby.zones.any fun e => e.first = x.first && e.last = x.last then
    .done (s.setStandby { s.standby with zones := replaceZone s.standby.zones x }) none
  else if s.standby.zones.any (·.meets x.first x.last) then .refused .overlap
  else if Config.zoneCapacity ≤ s.standby.zones.length then .refused .tableFull
  else .done (s.setStandby { s.standby with zones := insertZone s.standby.zones x }) none

section
variable {first last : ZoneCode} {depot hold : Byte} {s : State} {f l : Nat}

theorem putZone_notDecimal (h : zoneValue first = none ∨ zoneValue last = none) :
    putZone first last depot hold s = .refused .outOfRange := by
  unfold putZone
  split
  case h_1 f l hf hl => simp [hf, hl] at h
  case h_2 => rfl

theorem putZone_outOfRange (hf : zoneValue first = some f) (hl : zoneValue last = some l)
    (h : l < f ∨ depot.toNat < 1 ∨ 250 < depot.toNat ∨ 1 < hold.toNat) :
    putZone first last depot hold s = .refused .outOfRange := by
  have hbad : (decide (l < f) || !isDepot depot.toNat || decide (1 < hold.toNat)) = true := by
    simp only [isDepot, Bool.or_eq_true, Bool.not_eq_true', Bool.and_eq_false_iff,
      decide_eq_true_eq, decide_eq_false_iff_not]
    omega
  simp only [putZone, hf, hl, hbad, if_true]

theorem putZone_inRange (hf : zoneValue first = some f) (hl : zoneValue last = some l)
    (hfl : f ≤ l) (hd : 1 ≤ depot.toNat ∧ depot.toNat ≤ 250) (hh : hold.toNat ≤ 1) :
    putZone first last depot hold s =
      putEntry { first := f, last := l, depot := depot.toNat, hold := hold = 1 } s := by
  have hgood : (decide (l < f) || !isDepot depot.toNat || decide (1 < hold.toNat)) = false := by
    simp [(isDepot_iff _).2 hd, hfl, hh]
  simp only [putZone, hf, hl, hgood, Bool.false_eq_true, if_false]
  rfl

end

section
variable {x : ZoneEntry} {s : State}

theorem putEntry_replaces (h : ∃ e ∈ s.standby.zones, e.first = x.first ∧ e.last = x.last) :
    putEntry x s = .done (s.setStandby { s.standby with zones := s.standby.zones.map fun e =>
      if e.first = x.first ∧ e.last = x.last then x else e }) none := by
  have hany : (s.standby.zones.any fun e => e.first = x.first && e.last = x.last) = true := by
    simpa using h
  simp only [putEntry, hany, if_true, replaceZone, Bool.and_eq_true, decide_eq_true_eq]

/-- With no entry of the same range, the tests of steps 3 and 4 decide. -/
theorem putEntry_new (h : ∀ e ∈ s.standby.zones, ¬(e.first = x.first ∧ e.last = x.last)) :
    putEntry x s =
      if s.standby.zones.any (·.meets x.first x.last) then .refused .overlap
      else if Config.zoneCapacity ≤ s.standby.zones.length then .refused .tableFull
      else .done (s.setStandby { s.standby with zones := insertZone s.standby.zones x }) none :=
  if_neg (by simpa using h)

theorem putEntry_overlap (h : ∀ e ∈ s.standby.zones, ¬(e.first = x.first ∧ e.last = x.last))
    (hm : ∃ e ∈ s.standby.zones, e.first ≤ x.last ∧ x.first ≤ e.last) :
    putEntry x s = .refused .overlap :=
  (putEntry_new h).trans (if_pos (by simpa [ZoneEntry.meets_iff] using hm))

/-- An entry that meets none is refused by a full table and written into any other. -/
theorem putEntry_apart (h : ∀ e ∈ s.standby.zones, ¬(e.first = x.first ∧ e.last = x.last))
    (hm : ∀ e ∈ s.standby.zones, ¬(e.first ≤ x.last ∧ x.first ≤ e.last)) :
    putEntry x s =
      if Config.zoneCapacity ≤ s.standby.zones.length then .refused .tableFull
      else .done (s.setStandby { s.standby with zones := insertZone s.standby.zones x }) none :=
  (putEntry_new h).trans (if_neg (by simpa [ZoneEntry.meets_iff] using hm))

/-- The new entry of a bank within its bounds stands between the lower and the higher ones. -/
theorem insertZone_standby (hw : s.standby.within) (hx : x.first ≤ x.last)
    (hm : ∀ e ∈ s.standby.zones, ¬(e.first ≤ x.last ∧ x.first ≤ e.last)) :
    insertZone s.standby.zones x = s.standby.zones.filter (·.first < x.first) ++ [x] ++
      s.standby.zones.filter (x.first < ·.first) :=
  insertZone_eq_filter hw.firsts fun e he heq =>
    hm e he ⟨heq.trans_le hx, heq ▸ hw.ranges e he⟩

end

/-! ## The bank requests (R33 to R35) -/

@[simp] theorem State.standby_setStandby (s : State) (b : Bank) : (s.setStandby b).standby = b := by
  cases h : s.active <;> simp [State.standby, State.bank, BankNumber.other, h]

/-- A write to the standby bank leaves the active one. -/
theorem State.bank_active_setStandby (s : State) (b : Bank) :
    (s.setStandby b).bank s.active = s.bank s.active := by
  cases h : s.active <;> simp [State.bank, h]

/-- A bank with no entries has no route for any zone (R34). -/
theorem Bank.lookup_of_zones_nil {b : Bank} (h : b.zones = []) (zone : ZoneCode)
    (cls : ServiceClass) : b.lookup zone cls = .noRoute := by
  cases hz : zoneValue zone <;> simp [Bank.lookup, hz, h]

/-- A bank with no rows has no candidates for any depot (R34). -/
theorem Bank.rowFor_of_rows_nil {b : Bank} (h : b.rows = []) (cls : ServiceClass) (depot : Nat) :
    b.rowFor cls depot = none := by
  simp [Bank.rowFor, h]

/-! ## The requests as commands -/

section
variable (s : State)

theorem exec_putZone (first last : ZoneCode) (depot hold : Byte) :
    exec (.putZone first last depot hold) s =
      takeRequest (.putZone first last depot hold) (putZone first last depot hold) s := rfl

theorem exec_copyBank : exec .copyBank s =
    takeRequest .copyBank (fun s => .done (s.setStandby (s.bank s.active)) none) s := rfl

theorem exec_clearBank : exec .clearBank s =
    takeRequest .clearBank (fun s => .done (s.setStandby {}) none) s := rfl

theorem exec_switchBank : exec .switchBank s =
    takeRequest .switchBank (fun s => .done (State.raise { s with active := s.active.other }
      .bankSwitch (.bank s.active.other)) none) s := rfl

end

/-! ## The statements -/

/-- Settles O32: the tests of R29 in order. A value out of range is refused by `putZone`'s first test;
for values in range each later step is a case of `putEntry`. -/
theorem putZoneWritesOneEntry : Obligations.PutZoneWritesOneEntry := by
  intro s first last depot hold hr hw c refuse zs
  have refused {r : Result} (h : putZone first last depot hold s = .refused r) : refuse r :=
    (exec_putZone s first last depot hold).trans (takeRequest_refused hr h)
  refine ⟨fun hz => refused (putZone_notDecimal hz), fun f l hf hl => ?_⟩
  intro x write
  have written {zs' : List ZoneEntry} (h : putZone first last depot hold s =
      .done (s.setStandby { s.standby with zones := zs' }) none) : write zs' :=
    (exec_putZone s first last depot hold).trans (takeRequest_done hr h)
  refine ⟨fun hbad => refused (putZone_outOfRange hf hl hbad), fun hfl h1 h250 hh => ?_⟩
  have hput : putZone first last depot hold s = putEntry x s :=
    putZone_inRange hf hl hfl ⟨h1, h250⟩ hh
  refine ⟨fun hsame => ?replace, fun hnew => ⟨fun hmeets => ?overlap, fun hapart => ?apart⟩⟩
  case replace => exact written (hput.trans (putEntry_replaces hsame))
  case overlap => exact refused (hput.trans (putEntry_overlap hnew hmeets))
  case apart =>
    have htest := hput.trans (putEntry_apart (x := x) hnew hapart)
    rw [insertZone_standby (x := x) hw hfl hapart] at htest
    exact ⟨fun hfull => refused (htest.trans (if_pos hfull)),
      fun hroom => written (htest.trans (if_neg hroom.not_ge))⟩

/-- Settles O34: each request's rule is DONE with one write, of the standby bank or of the selector. -/
theorem bankRequestsAreAlwaysDone : Obligations.BankRequestsAreAlwaysDone := by
  refine ⟨fun s hr => ⟨?copy, s.standby_setStandby _, ?clear, fun b => ?written,
    fun zone cls depot => ?cleared⟩, fun s hr => ?switch⟩
  case copy => exact (exec_copyBank s).trans (takeRequest_done hr rfl)
  case clear => exact (exec_clearBank s).trans (takeRequest_done hr rfl)
  case written =>
    exact ⟨s.standby_setStandby b, s.setStandby_active b, s.bank_active_setStandby b⟩
  case cleared =>
    exact ⟨Bank.lookup_of_zones_nil rfl zone cls, Bank.rowFor_of_rows_nil rfl cls depot⟩
  case switch =>
    intro other
    have hother : other = s.active.other := by
      unfold other
      cases s.active <;> rfl
    rw [hother]
    exact (exec_switchBank s).trans (takeRequest_done hr rfl)

end Sys2Proof.Machine

/-! The reads of the clock, of a trailer class, of a door and of a mover (R42, R45, R60, R120): what each rule answers, and a mover's place in the free list. -/

namespace Sys2Proof.Machine

/-! ## The ranges the reads test -/

theorem isDoorNumber_iff (d : Nat) : isDoorNumber d = true ↔ 1 ≤ d ∧ d ≤ 48 := by
  simp [isDoorNumber]

theorem isMoverNumber_iff (m : Nat) : isMoverNumber m = true ↔ 1 ≤ m ∧ m ≤ 32 := by
  simp [isMoverNumber]

theorem isClassSlot_iff (n : Nat) : isClassSlot n = true ↔ n ≤ 7 := by
  simp [isClassSlot]

/-! ## A mover's place in the free list (R120) -/

section
variable {s : State} {m : Nat}

theorem State.freePlace_of_notMem (h : m ∉ s.freeList) : s.freePlace m = 0 := by
  simp [State.freePlace, h]

theorem State.freePlace_of_mem (h : m ∈ s.freeList) :
    s.freePlace m = s.freeList.idxOf m + 1 := by
  simp [State.freePlace, h]

theorem State.one_le_freePlace (h : m ∈ s.freeList) : 1 ≤ s.freePlace m := by
  rw [State.freePlace_of_mem h]
  exact Nat.le_add_left 1 _

/-- The entry at a listed mover's place is that mover. -/
theorem State.getElem?_freePlace (h : m ∈ s.freeList) :
    s.freeList[s.freePlace m - 1]? = some m := by
  rw [State.freePlace_of_mem h, Nat.add_sub_cancel]
  exact List.getElem?_idxOf h

/-- No entry before a listed mover's place is that mover: the place is the first one. -/
theorem State.getElem?_ne_of_lt_freePlace (h : m ∈ s.freeList) {i : Nat}
    (hi : i + 1 < s.freePlace m) : s.freeList[i]? ≠ some m := by
  rw [State.freePlace_of_mem h] at hi
  intro hm
  have htake : m ∈ s.freeList.take (i + 1) :=
    List.mem_of_getElem? (i := i) (by rw [List.getElem?_take_of_lt i.lt_succ_self, hm])
  have hfirst : s.freeList.idxOf m < i + 1 := (List.mem_take_iff_idxOf_lt h).mp htake
  omega

end

/-! ## What each read finds -/

section
variable {s : State} {n : Nat}

theorem readTrailerClass_outOfRange (h : 7 < n) :
    readTrailerClass n s = .refused .outOfRange := by
  have hn : ¬isClassSlot n = true := by rw [isClassSlot_iff]; omega
  simp [readTrailerClass, hn]

theorem readTrailerClass_inRange (h : n ≤ 7) : readTrailerClass n s =
    .done s (some (.trailerClass ((s.classes.get? n).map fun c => (c, s.trunksOfClass n)))) := by
  simp [readTrailerClass, (isClassSlot_iff n).mpr h]

theorem readDoor_outOfRange (h : n < 1 ∨ 48 < n) : readDoor n s = .refused .outOfRange := by
  have hn : ¬isDoorNumber n = true := by rw [isDoorNumber_iff]; omega
  simp [readDoor, hn]

theorem readDoor_inRange (h1 : 1 ≤ n) (h48 : n ≤ 48) : readDoor n s = .done s (some (.door
    { slots := (s.door n).slots, reserve := (s.door n).reserve, depth := (s.door n).depth
      burst := (s.door n).burst, active := (s.door n).active, next := (s.door n).next
      nextPending := (s.door n).nextPending, claims := (s.door n).claims
      hold := (s.door n).hold, queueLength := (s.queue n).length })) := by
  simp [readDoor, (isDoorNumber_iff n).mpr ⟨h1, h48⟩]

theorem readMover_outOfRange (h : n < 1 ∨ 32 < n) : readMover n s = .refused .outOfRange := by
  have hn : ¬isMoverNumber n = true := by rw [isMoverNumber_iff]; omega
  simp [readMover, hn]

theorem readMover_inRange (h1 : 1 ≤ n) (h32 : n ≤ 32) : readMover n s = .done s (some (.mover
    { state := (s.mover n).state, address := (s.mover n).address, move := (s.mover n).move
      label := ((s.mover n).move.bind s.palletOfMove).map Pallet.label
      place := s.freePlace n, freeLength := s.freeList.length
      queue0Length := (s.queue 0).length })) := by
  simp [readMover, (isMoverNumber_iff n).mpr ⟨h1, h32⟩]

end

/-! ## The reads as commands -/

section
variable (s : State)

theorem exec_readClock : exec .readClock s = takeRequest .readClock
    (fun s => .done s (some (.clock s.clock.running s.clock.value))) s := rfl

theorem exec_readTrailerClass (cls : Byte) : exec (.readTrailerClass cls) s =
    takeRequest (.readTrailerClass cls) (readTrailerClass cls.toNat) s := rfl

theorem exec_readDoor (door : Byte) :
    exec (.readDoor door) s = takeRequest (.readDoor door) (readDoor door.toNat) s := rfl

theorem exec_readMover (mover : Byte) :
    exec (.readMover mover) s = takeRequest (.readMover mover) (readMover mover.toNat) s := rfl

end

/-! ## The statements -/

/-- Settles O46: each read is refused by its range test, or DONE with the record as it stands and the
state unchanged; the mover's place is `freePlace`, the first place where the free list holds it. -/
theorem doorAndMoverAreRead : Obligations.DoorAndMoverAreRead := by
  refine ⟨fun s door ht => ⟨fun hbad => ?doorRefused, fun h1 h48 => ?doorRead⟩,
    fun s mover ht => ⟨fun hbad => ?moverRefused, fun h1 h32 => ?moverRead⟩⟩
  case doorRefused =>
    exact (exec_readDoor s door).trans (takeRequest_refused ht.1 (readDoor_outOfRange hbad))
  case doorRead =>
    exact (exec_readDoor s door).trans (takeRequest_record ht (readDoor_inRange h1 h48))
  case moverRefused =>
    exact (exec_readMover s mover).trans (takeRequest_refused ht.1 (readMover_outOfRange hbad))
  case moverRead =>
    exact ⟨s.freePlace mover.toNat,
      (exec_readMover s mover).trans (takeRequest_record ht (readMover_inRange h1 h32)),
      State.freePlace_of_notMem, fun hm => ⟨State.one_le_freePlace hm,
        State.getElem?_freePlace hm, fun _ => State.getElem?_ne_of_lt_freePlace hm⟩⟩

/-- Settles O37: the clock's read has no test, the class read one; an absent class's record is 19 zero
bytes by its layout. -/
theorem clockAndTrailerClassAreRead : Obligations.ClockAndTrailerClassAreRead := by
  refine ⟨fun s ht => ?clock, fun s cls ht => ⟨fun hbad => ?refused, fun h7 => ?read, rfl⟩⟩
  case clock => exact (exec_readClock s).trans (takeRequest_record ht rfl)
  case refused =>
    exact (exec_readTrailerClass s cls).trans
      (takeRequest_refused ht.1 (readTrailerClass_outOfRange hbad))
  case read =>
    exact (exec_readTrailerClass s cls).trans (takeRequest_record ht (readTrailerClass_inRange h7))

end Sys2Proof.Machine

/-! The commands by what takes them: each request is `takeRequest` with its rule, each terminal frame `takeTerminal` with its, and the others their own meaning. The scans and the requests that the sections above settle have these equations there. -/

namespace Sys2Proof.Machine

variable (s : State)

/-! ## Terminal frames, deadlines, ports -/

theorem exec_signOn (src : Address) (m : Byte) :
    exec (.signOn src m) s = takeTerminal m (fun m s => s.signOn src m) s := rfl

theorem exec_signOff (m : Byte) :
    exec (.signOff m) s = takeTerminal m (fun m s => s.signOff m) s := rfl

theorem exec_accept (m : Byte) (n : BitVec 16) :
    exec (.accept m n) s = takeTerminal m (fun m s => s.acceptFrame m n.toNat) s := rfl

theorem exec_decline (m : Byte) (n : BitVec 16) :
    exec (.decline m n) s = takeTerminal m (fun m s => s.declineFrame m n.toNat) s := rfl

theorem exec_abandon (m : Byte) (n : BitVec 16) :
    exec (.abandon m n) s = takeTerminal m (fun m s => s.abandonFrame m n.toNat) s := rfl

theorem exec_acceptTimeout (m : Byte) : exec (.acceptTimeout m) s =
    if s.acceptReached m.toNat then runEvent { s := s, work := [.moverReport] } else .next s := rfl

theorem exec_doneTimeout (m : Byte) : exec (.doneTimeout m) s =
    if s.doneReached m.toNat then runEvent { s := s, work := [.moverReport] } else .next s := rfl

theorem exec_clockAdvance : exec .clockAdvance s = execClockAdvance s := rfl

theorem exec_closeTimeReached (t : Byte) : exec (.closeTimeReached t) s =
    if s.closeReached t.toNat then runEvent { s := s, work := [.trunkReport] } else .next s := rfl

theorem exec_cutoffReached (t : Byte) : exec (.cutoffReached t) s =
    if s.cutoffReached t.toNat then runEvent { s := s, work := [.trunkReport] } else .next s := rfl

theorem exec_forwardFrame (p : Port) (f : RawFrame) : exec (.forwardFrame p f) s =
    if classify s.hub s.unit p f = .forward then .next (s.placePass (portOther p) f.bytes)
    else .next s := rfl

theorem exec_discardFrame (p : Port) (f : RawFrame) : exec (.discardFrame p f) s = .next s := rfl

theorem exec_transmissionEnd (p : Port) (hub : Byte) (unit : BitVec 4) :
    exec (.transmissionEnd p hub unit) s = execTransmissionEnd p hub unit s := rfl

theorem exec_pinReset (hub : Byte) (unit : BitVec 4) :
    exec (.pinReset hub unit) s = .next (s.pinReset hub unit) := rfl

theorem exec_mgmtFrame (src : Address) (body : List Byte) :
    exec (.mgmtFrame src body) s = execMgmtFrame src body s := rfl

/-! ## Requests -/

theorem exec_badRequestCode (code : Byte) (params : List Byte) :
    exec (.badRequestCode code params) s =
      takeRequest (.badRequestCode code params) (fun _ => .refused .badRequest) s := rfl

theorem exec_readPallet (l : Label) :
    exec (.readPallet l) s = takeRequest (.readPallet l) (readPallet l) s := rfl

theorem exec_probe (k : Byte) (x : ScanFields) : exec (.probe k x) s =
    takeRequest (.probe k x) (fun s => .done s (some (.verdict (s.probe k x)))) s := rfl

theorem exec_dropZone (f : ZoneCode) :
    exec (.dropZone f) s = takeRequest (.dropZone f) (dropZone f) s := rfl

theorem exec_putDepotRow (depot cls n a b c d : Byte) :
    exec (.putDepotRow depot cls n a b c d) s = takeRequest (.putDepotRow depot cls n a b c d)
      (putDepotRow depot cls n [a, b, c, d]) s := rfl

theorem exec_dropDepotRow (depot cls : Byte) : exec (.dropDepotRow depot cls) s =
    takeRequest (.dropDepotRow depot cls) (dropDepotRow depot cls) s := rfl

theorem exec_readZone (role : Byte) (z : ZoneCode) :
    exec (.readZone role z) s = takeRequest (.readZone role z) (readZone role z) s := rfl

theorem exec_readDepotRow (role depot cls : Byte) : exec (.readDepotRow role depot cls) s =
    takeRequest (.readDepotRow role depot cls) (readDepotRow role depot cls) s := rfl

theorem exec_startShift (time : BitVec 32) :
    exec (.startShift time) s = takeRequest (.startShift time) (startShift time.toNat) s := rfl

theorem exec_stopShift : exec .stopShift s = takeRequest .stopShift
    (fun s => .done { s with clock := { s.clock with running := false, periods := 0 } } none) s := rfl

theorem exec_putTrailerClass (cls n : Byte) (p f a tk ta kl al pl : BitVec 16) :
    exec (.putTrailerClass cls n p f a tk ta kl al pl) s =
      takeRequest (.putTrailerClass cls n p f a tk ta kl al pl) (putTrailerClass cls.toNat
        { rows := n.toNat, pitch := p.toNat, front := f.toNat, axle := a.toNat
          kingpinTare := tk.toNat, axleTare := ta.toNat, kingpinLimit := kl.toNat
          axleLimit := al.toNat, payload := pl.toNat }) s := rfl

theorem exec_putTrunk (t da db cls : Byte) (cut : BitVec 32) (m : BitVec 16) :
    exec (.putTrunk t da db cls cut m) s = takeRequest (.putTrunk t da db cls cut m)
      (putTrunk t.toNat da.toNat (optionalNumber db) cls.toNat cut.toNat (marginOf m)) s := rfl

theorem exec_setCutoff (t : Byte) (cut : BitVec 32) (m : BitVec 16) :
    exec (.setCutoff t cut m) s =
      takeRequest (.setCutoff t cut m) (setCutoff t.toNat cut.toNat m.toNat) s := rfl

theorem exec_dropTrunk (t : Byte) :
    exec (.dropTrunk t) s = takeRequest (.dropTrunk t) (dropTrunk t.toNat) s := rfl

theorem exec_placeActive (t d mode : Byte) : exec (.placeActive t d mode) s =
    takeRequest (.placeActive t d mode) (placeActiveRule t.toNat d.toNat (mode = 0)) s := rfl

theorem exec_placeNext (t d : Byte) : exec (.placeNext t d) s =
    takeRequest (.placeNext t d) (placeNextRule t.toNat d.toNat) s := rfl

theorem exec_depart (t : Byte) :
    exec (.depart t) s = takeRequest (.depart t) (departTrunk t.toNat) s := rfl

theorem exec_setDoor (d slots reserve depth burst : Byte) :
    exec (.setDoor d slots reserve depth burst) s =
      takeRequest (.setDoor d slots reserve depth burst)
        (setDoor d.toNat slots.toNat reserve.toNat depth.toNat burst.toNat) s := rfl

theorem exec_readTrunk (t start : Byte) : exec (.readTrunk t start) s =
    takeRequest (.readTrunk t start) (readTrunk t.toNat start.toNat) s := rfl

theorem exec_forceRelease (d : Byte) :
    exec (.forceRelease d) s = takeRequest (.forceRelease d) (forceRelease d.toNat) s := rfl

theorem exec_removePallet (l : Label) :
    exec (.removePallet l) s = takeRequest (.removePallet l) (removePallet l) s := rfl

theorem exec_clearNotice (set : BitVec 16) :
    exec (.clearNotice set) s = takeRequest (.clearNotice set) (clearNotice set) s := rfl

theorem exec_testNotice (v : BitVec 16) :
    exec (.testNotice v) s = takeRequest (.testNotice v) (testNotice v) s := rfl

theorem exec_setNotice (set : BitVec 16) (a b both keep : Byte) :
    exec (.setNotice set a b both keep) s =
      takeRequest (.setNotice set a b both keep) (setNotice set a b both keep) s := rfl

theorem exec_setChannel (ch pr : Byte) (a : Address) : exec (.setChannel ch pr a) s =
    takeRequest (.setChannel ch pr a) (setChannel ch pr a) s := rfl

theorem exec_readNotices : exec .readNotices s = takeRequest .readNotices readNotices s := rfl

theorem exec_setLimits (rw at' : Byte) (dn al th hw : BitVec 16) :
    exec (.setLimits rw at' dn al th hw) s = takeRequest (.setLimits rw at' dn al th hw)
      (setLimits { repeatWindow := rw.toNat, acceptTimeout := at'.toNat, doneTimeout := dn.toNat
                   allowance := al.toNat, threshold := th.toNat, highWater := hw.toNat }) s := rfl

theorem exec_setOutputs (a : Address) : exec (.setOutputs a) s =
    takeRequest (.setOutputs a) (fun s => .done { s with verdictAddress := a } none) s := rfl

theorem exec_readSettings : exec .readSettings s = takeRequest .readSettings readSettings s := rfl

theorem exec_restartFull (k : Byte) :
    exec (.restartFull k) s = takeRestart (.restartFull k) (k = 0) .full s := rfl

theorem exec_restartFloor :
    exec .restartFloor s = takeRestart .restartFloor true .floor s := rfl

end Sys2Proof.Machine

/-! What a whole command can do: a property that every write of an event and every write of a command outside its event keeps is kept by every command, and so by every step. -/

namespace Sys2Proof.Machine

/-- A property that every write of the model keeps: those of an event, and those that a command makes
outside its event, each under the tests that the command makes before it. -/
structure Written (P : State → Prop) : Prop extends Kept P where
  addPallet : ∀ {s : State} p, s.pallets.length < Config.palletCapacity → P s → P (s.addPallet p)
  enterRepeat : ∀ {s : State} k n l, P s → P (s.enterRepeat k n l)
  clock : ∀ {s : State} c, (s.clock.within → c.within) → P s → P { s with clock := c }
  /-- The settings, the selector, a pending restart and the model's own fields. -/
  settings : ∀ {s : State} active conditions limits keepAll a b address restart pending answer n,
    P s → P { s with
      active := active, conditions := conditions, limits := limits, keepAll := keepAll
      channelA := a, channelB := b, verdictAddress := address, restart := restart
      pending := pending, answer := answer, freeCount := n }
  placePass : ∀ {s : State} p bs, P s → P (s.placePass p bs)
  endTransmission : ∀ {s : State} p, P s → P (s.endTransmission p)
  beginReply : ∀ {s : State} x, P s → P { s with yard := { s.yard with sending := some x } }
  dropDueFrame : ∀ {s : State}, P s → P s.dropDueFrame
  joinFrame : ∀ {s : State} f, s.frames.length < Config.frameCapacity → f.within → P s →
    P { s with frames := s.frames ++ [f] }
  pinReset : ∀ {s : State} hub unit, P s → P (s.pinReset hub unit)
  executeRestart : ∀ {s : State} k hub unit, P s → P (s.executeRestart k hub unit)
  setStandby : ∀ {s : State} b, (s.bank0.within → s.bank1.within → b.within) → P s →
    P (s.setStandby b)
  putClass : ∀ {s : State} n c, n ≤ 7 → P s → P { s with classes := s.classes.put n c }
  addTrunk : ∀ {s : State} t r, 1 ≤ t ∧ t ≤ 128 → s.trunk? t = none → r.placement = .unplaced →
    P s → P (s.addTrunk t r)
  doorSettings : ∀ {s : State} d slots reserve depth burst, (s.door d).claims ≤ slots → P s →
    P (s.modDoor d (·.withSettings slots reserve depth burst))
  placeActive : ∀ {s : State} t d, placeTests t d true s = none → (s.door d).active = none → P s →
    P (s.placeActive t d)
  placeNext : ∀ {s : State} t d, placeTests t d true s = none → (s.door d).next = none →
    (s.door d).active ≠ some t → P s → P (s.placeNext t d)
  replaceNext : ∀ {s : State} t u d, placeTests t d true s = none → (s.door d).next = some u →
    t ≠ u → (s.door d).active ≠ some t → P s →
    P ((s.modTrunk u fun r => { r with placement := .unplaced }).placeNext t d)

/-- A request that only reads: its rule refuses it, or is DONE with the state as it is. -/
def ReadsOnly (rule : State → Taken) : Prop :=
  ∀ s, (∃ r, rule s = .refused r) ∨ ∃ x, rule s = .done s x

theorem readPallet_readsOnly (l : Label) : ReadsOnly (readPallet l) := fun s => by
  unfold readPallet; split
  · exact .inl ⟨_, rfl⟩
  · exact .inr ⟨_, rfl⟩

theorem readZone_readsOnly (role : Byte) (z : ZoneCode) : ReadsOnly (readZone role z) := fun s => by
  unfold readZone; split
  · exact .inr ⟨_, rfl⟩
  · exact .inl ⟨_, rfl⟩

theorem readDepotRow_readsOnly (role depot cls : Byte) :
    ReadsOnly (readDepotRow role depot cls) := fun s => by
  unfold readDepotRow; split
  · split
    · exact .inl ⟨_, rfl⟩
    · exact .inr ⟨_, rfl⟩
  · exact .inl ⟨_, rfl⟩

theorem readTrailerClass_readsOnly (n : Nat) : ReadsOnly (readTrailerClass n) := fun s => by
  unfold readTrailerClass; split
  · exact .inl ⟨_, rfl⟩
  · exact .inr ⟨_, rfl⟩

theorem readTrunk_readsOnly (t start : Nat) : ReadsOnly (readTrunk t start) := fun s => by
  unfold readTrunk; split
  · exact .inl ⟨_, rfl⟩
  · exact .inr ⟨_, rfl⟩

theorem readDoor_readsOnly (d : Nat) : ReadsOnly (readDoor d) := fun s => by
  unfold readDoor; split
  · exact .inl ⟨_, rfl⟩
  · exact .inr ⟨_, rfl⟩

theorem readMover_readsOnly (m : Nat) : ReadsOnly (readMover m) := fun s => by
  unfold readMover; split
  · exact .inl ⟨_, rfl⟩
  · exact .inr ⟨_, rfl⟩

/-! ## Facts the tests of a command give -/

section
variable {s : State}

/-- A standby bank is within its bounds where both banks are. -/
theorem State.standby_within (h0 : s.bank0.within) (h1 : s.bank1.within) : s.standby.within := by
  unfold State.standby
  cases s.active <;> assumption

/-- The tests of R53 do not pass for a mode byte that is no mode. -/
theorem placeTests_mode {k d : Nat} {ok : Bool} (h : placeTests k d ok s = none) :
    placeTests k d true s = none := by
  cases ok
  · simp [placeTests] at h
  · exact h

theorem Clock.advance_within {c : Clock} (h : c.within) : c.advance.within := by
  unfold Clock.advance Clock.within at *
  have : Config.lastSecond = 86399 := rfl
  repeat' split
  all_goals first | exact h | (dsimp only; omega)

theorem Clock.period_within {c : Clock} (h : c.within) : c.period.within := by
  unfold Clock.period
  repeat' split
  all_goals first | exact h | exact advance_within h

theorem takeElements_length {n : Nat} {bs : List Byte} {es : List (Byte × List Byte)}
    (h : takeElements n bs = some es) : es.length = n := by
  induction n generalizing bs es with
  | zero => simp [takeElements] at h; simp [← h]
  | succ n ih =>
    unfold takeElements at h
    split at h
    · omega
    · rename_i hn
      cases hn
      split at h
      · obtain ⟨xs, hx, rfl⟩ := Option.map_eq_some_iff.1 h
        simp [ih hx]
      · cases h
    · cases h

/-- A management body that is not refused whole carries 1 to 32 requests (R166). -/
theorem bodyElements_length {body : List Byte} {x : Bool × List (Byte × List Byte)}
    (h : bodyElements body = some x) :
    1 ≤ x.2.length ∧ x.2.length ≤ Config.requestCapacity := by
  unfold bodyElements at h
  split at h
  · split at h
    · cases h
    · rename_i hc
      simp only [Bool.or_eq_true, decide_eq_true_eq, not_or, not_lt] at hc
      obtain ⟨es, he, rfl⟩ := Option.map_eq_some_iff.1 h
      rw [takeElements_length he]
      omega
  · cases h

end

namespace Written

variable {P : State → Prop} {s t : State}

/-! ## Requests -/

theorem modConditions (h : Written P) (set : BitVec 16) (f) (hs : P s) :
    P (s.modConditions set f) := by
  refine Kept.foldl (fun c hs => ?_) _ hs
  split
  · exact h.settings _ _ _ _ _ _ _ _ _ _ _ hs
  · exact hs

theorem putZone (h : Written P) (f l depot hold) (hs : P s) :
    (putZone f l depot hold s).All P := by
  unfold Machine.putZone
  split
  · split
    · trivial
    · rename_i hr
      simp only [Bool.or_eq_true, decide_eq_true_eq, not_or, not_lt] at hr
      have standby (h0 : s.bank0.within) (h1 : s.bank1.within) : s.standby.within := by
        unfold State.standby
        cases s.active <;> assumption
      dsimp only
      split
      · exact h.setStandby _ (fun h0 h1 => (standby h0 h1).replace _) hs
      · split
        · trivial
        · split
          · trivial
          · exact h.setStandby _ (fun h0 h1 => (standby h0 h1).insert hr.1.1 (by simp_all)
              (by omega)) hs
  · trivial

theorem dropZone (h : Written P) (f) (hs : P s) : (Machine.dropZone f s).All P := by
  unfold Machine.dropZone
  split
  · trivial
  · dsimp only
    split
    · exact h.setStandby _ (fun h0 h1 => (State.standby_within h0 h1).filter _) hs
    · trivial

theorem putDepotRow (h : Written P) (depot cls count trunks) (hs : P s) :
    (Machine.putDepotRow depot cls count trunks s).All P := by
  unfold Machine.putDepotRow
  dsimp only
  split
  · trivial
  · split
    · trivial
    · rename_i hr
      simp only [isDepot, isClass, Bool.or_eq_true, Bool.not_eq_true', Bool.and_eq_false_iff,
        decide_eq_false_iff_not, not_or, not_not, Bool.not_eq_false] at hr
      refine h.setStandby _ (fun h0 h1 => ?_) hs
      have hb := State.standby_within h0 h1
      refine ⟨hb.count, hb.ranges, hb.apart, Table.keysIn_put hb.rows _ ?_⟩
      unfold rowSlot
      omega

theorem dropDepotRow (h : Written P) (depot cls) (hs : P s) :
    (Machine.dropDepotRow depot cls s).All P := by
  unfold Machine.dropDepotRow
  dsimp only
  split
  · trivial
  · split
    · refine h.setStandby _ (fun h0 h1 => ?_) hs
      have hb := State.standby_within h0 h1
      exact ⟨hb.count, hb.ranges, hb.apart, Table.keysIn_erase hb.rows _⟩
    · trivial

theorem copyBank (h : Written P) (hs : P s) : P (s.setStandby (s.bank s.active)) := by
  refine h.setStandby _ (fun h0 h1 => ?_) hs
  cases s.active <;> assumption

theorem switchBank (h : Written P) (hs : P s) :
    P (State.raise { s with active := s.active.other } .bankSwitch (.bank s.active.other)) :=
  h.raise _ _ (h.settings _ _ _ _ _ _ _ _ _ _ _ hs)

theorem clockReports (h : Written P) (hs : P s) : P s.clockReports.1 := by
  unfold State.clockReports
  split
  · exact hs
  · exact hs
  · exact hs
  · exact h.settings _ _ _ _ _ _ _ _ _ _ _ hs

theorem startShift (h : Written P) (time) (hs : P s) : (Machine.startShift time s).All P := by
  unfold Machine.startShift
  split
  · trivial
  · split
    · trivial
    · exact h.clockReports (h.clock _ (fun _ => Nat.not_lt.1 ‹_›) hs)

theorem putTrailerClass (h : Written P) (n c) (hs : P s) :
    (Machine.putTrailerClass n c s).All P := by
  unfold Machine.putTrailerClass
  split
  · trivial
  · rename_i hr
    split
    · trivial
    · exact h.putClass _ _ (by simp [isClassSlot] at hr; omega) hs

theorem putTrunk (h : Written P) (k da db cls cut m) (hs : P s) :
    (Machine.putTrunk k da db cls cut m s).All P := by
  unfold Machine.putTrunk
  split
  · trivial
  · rename_i hr
    split
    · trivial
    · dsimp only
      split
      · refine h.addTrunk _ _ ?_ ‹_› rfl hs
        simp only [isTrunkNumber, Bool.or_eq_true, Bool.not_eq_true', Bool.and_eq_false_iff,
          decide_eq_false_iff_not, not_or, not_not] at hr
        omega
      · split
        · trivial
        · exact h.modTrunk _ _ (fun _ => rfl) hs

theorem setCutoff (h : Written P) (k cut m) (hs : P s) : (Machine.setCutoff k cut m s).All P := by
  unfold Machine.setCutoff
  split
  · trivial
  · split
    · trivial
    · split
      · trivial
      · refine h.modTrunk _ _ (fun r => ?_) hs
        unfold Trunk.withCutoff
        dsimp only
        split <;> rfl

theorem dropTrunk (_ : Written P) (k) (hs : P s) : (Machine.dropTrunk k s).All P := by
  unfold Machine.dropTrunk
  repeat' split
  all_goals trivial

theorem departTrunk (_ : Written P) (k) (hs : P s) : (Machine.departTrunk k s).All P := by
  unfold Machine.departTrunk
  repeat' split
  all_goals trivial

theorem placeActiveRule (h : Written P) (k d ok) (hs : P s) :
    (Machine.placeActiveRule k d ok s).All P := by
  unfold Machine.placeActiveRule
  split
  · trivial
  · rename_i ht
    split
    · trivial
    · rename_i hd
      exact h.placeActive _ _ (placeTests_mode ht) (by simpa using hd) hs

theorem placeNextRule (h : Written P) (k d) (hs : P s) : (Machine.placeNextRule k d s).All P := by
  unfold Machine.placeNextRule
  split
  · trivial
  · rename_i ht
    dsimp only
    split
    · exact hs
    · rename_i hk
      split
      · trivial
      · split
        · exact h.placeNext _ _ ht ‹_› ‹_› hs
        · rename_i hu
          split
          · trivial
          · exact h.replaceNext _ _ _ ht hu (fun e => hk (e ▸ hu)) ‹_› hs

theorem setDoor (h : Written P) (d slots reserve depth burst) (hs : P s) :
    (Machine.setDoor d slots reserve depth burst s).All P := by
  unfold Machine.setDoor
  dsimp only
  split
  · trivial
  · split
    · trivial
    · split
      · exact hs
      · exact h.doorSettings _ _ _ _ _ (by simp_all) hs

theorem removePallet (h : Written P) (l) (hs : P s) : (Machine.removePallet l s).All P := by
  unfold Machine.removePallet
  repeat' split
  all_goals first | trivial | exact h.freeRecord _ hs

theorem setLimits (h : Written P) (x) (hs : P s) : (Machine.setLimits x s).All P := by
  unfold Machine.setLimits
  split
  · trivial
  · exact h.reportCount (h.settings _ _ _ _ _ _ _ _ _ _ _ hs)

theorem setNotice (h : Written P) (set a b both keep) (hs : P s) :
    (Machine.setNotice set a b both keep s).All P := by
  unfold Machine.setNotice
  split
  · trivial
  · exact h.settings _ _ _ _ _ _ _ _ _ _ _ (h.modConditions set _ hs)

theorem setChannel (h : Written P) (ch pr a) (hs : P s) :
    (Machine.setChannel ch pr a s).All P := by
  unfold Machine.setChannel
  dsimp only
  repeat' split
  all_goals first | trivial | exact h.settings _ _ _ _ _ _ _ _ _ _ _ hs

theorem forceRelease (_ : Written P) (d) (hs : P s) : (Machine.forceRelease d s).All P := by
  unfold Machine.forceRelease
  repeat' split
  all_goals trivial

theorem takeRestart (h : Written P) {c ok k} (ht : Machine.takeRestart c ok k s = .next t)
    (hs : P s) : P t := by
  have give (due : Bool) : P (s.giveRestart due k) := by
    unfold State.giveRestart
    dsimp only
    have answered (a) : P { s with answer := a } := h.settings _ _ _ _ _ _ _ _ _ _ _ hs
    split
    · split
      · exact h.settings _ _ _ _ _ _ _ _ _ _ _ (h.beginReply _ (h.dropDueFrame (answered _)))
      · exact h.settings _ _ _ _ _ _ _ _ _ _ _ (h.dropDueFrame (answered _))
    · exact h.settings _ _ _ _ _ _ _ _ _ _ _ hs
  unfold Machine.takeRestart at ht
  split at ht
  · cases ht; exact hs
  · split at ht
    · cases ht; exact give _
    · cases ht; exact h.giveResult _ _ _ hs

/-! ## The clock and the ports -/

theorem takeReports (h : Written P) (ht : s.takeReports = .next t) (hs : P s) : P t :=
  h.runEvent (h.clockReports hs) ht

theorem clockAdvance (h : Written P) (ht : execClockAdvance s = .next t) (hs : P s) : P t := by
  unfold execClockAdvance at ht
  split at ht
  · cases hr : s.takeReports with
    | next u =>
      rw [hr] at ht
      cases ht
      exact h.clock _ Clock.advance_within (h.takeReports hr hs)
    | fault => rw [hr] at ht; cases ht
    | refused => rw [hr] at ht; cases ht
  · cases ht
    exact h.clock _ Clock.advance_within hs

theorem idle (h : Written P) (ht : s.idle = .next t) (hs : P s) : P t := by
  unfold State.idle at ht
  split at ht
  · exact h.takeReports ht hs
  · cases ht; exact h.clock _ Clock.period_within hs

theorem transmissionEnd (h : Written P) {p hub unit}
    (ht : execTransmissionEnd p hub unit s = .next t) (hs : P s) : P t := by
  unfold execTransmissionEnd at ht
  split at ht
  · split at ht
    · cases ht; exact h.executeRestart _ _ _ hs
    · cases ht
      exact h.settings _ _ _ _ _ _ _ _ _ _ _ (h.beginReply _ hs)
  · cases ht; exact h.endTransmission _ hs

theorem forwardFrame (h : Written P) {hub unit p f q bs}
    (ht : (if classify hub unit p f = .forward then .next (s.placePass q bs) else .next s :
      Host.Outcome State Fault Refusal) = .next t) (hs : P s) : P t := by
  split at ht
  · cases ht; exact h.placePass _ _ hs
  · cases ht; exact hs

theorem mgmtFrame (h : Written P) {src body} (ht : execMgmtFrame src body s = .next t)
    (hs : P s) : P t := by
  unfold execMgmtFrame at ht
  split at ht
  · cases ht; exact hs
  · split at ht
    · cases ht
      unfold State.refuseFrame
      dsimp only
      split
      · exact h.placeOwn _ _ _ hs
      · exact h.placeOwn _ _ _ (h.settings _ _ _ _ _ _ _ _ _ _ _ hs)
    · rename_i hb
      split at ht
      · cases ht; exact hs
      · cases ht
        exact h.joinFrame _ (by omega) (bodyElements_length hb) hs

/-! ## Commands and steps -/

theorem reads {rule : State → Taken} (hr : ReadsOnly rule) (hs : P s) : (rule s).All P := by
  obtain ⟨r, e⟩ | ⟨x, e⟩ := hr s <;> rw [e]
  · trivial
  · exact hs

/-- Every command keeps the property. -/
theorem exec (h : Written P) {c : Instr} (ht : Machine.exec c s = .next t) (hs : P s) : P t := by
  have request {c rule} (ht : Machine.takeRequest c rule s = .next t) (hr : (rule s).All P) : P t :=
    h.takeRequest hr ht hs
  have read {c rule} (ht : Machine.takeRequest c rule s = .next t) (hr : ReadsOnly rule) : P t :=
    request ht (reads hr hs)
  have scan {src kind scan} (ht : Machine.takeScan src kind scan s = .next t) : P t :=
    h.takeScan h.addPallet h.enterRepeat ht hs
  have report {b : Bool} {w} (ht : (if b then Machine.runEvent { s := s, work := w } else .next s) =
      .next t) : P t := by
    split at ht
    · exact h.runEvent (e := { s := s, work := w }) hs ht
    · cases ht; exact hs
  cases c with
  | intakeScan src x =>
    rw [exec_intakeScan] at ht
    exact scan ht
  | laneScan src x =>
    rw [exec_laneScan] at ht
    exact scan ht
  | loadScan src x =>
    rw [exec_loadScan] at ht
    exact scan ht
  | reworkScan src x =>
    rw [exec_reworkScan] at ht
    exact scan ht
  | badPlaceKindScan src k x =>
    rw [exec_badPlaceKindScan] at ht
    exact scan ht
  | signOn src m =>
    rw [exec_signOn] at ht
    exact h.takeTerminal (fun m => h.signOn src m hs) ht hs
  | signOff m =>
    rw [exec_signOff] at ht
    exact h.takeTerminal (fun m => h.signOff m hs) ht hs
  | accept m n =>
    rw [exec_accept] at ht
    exact h.takeTerminal (fun m => h.acceptFrame m _ hs) ht hs
  | decline m n =>
    rw [exec_decline] at ht
    exact h.takeTerminal (fun m => h.declineFrame m _ hs) ht hs
  | abandon m n =>
    rw [exec_abandon] at ht
    exact h.takeTerminal (fun m => h.abandonFrame m _ hs) ht hs
  | acceptTimeout m =>
    rw [exec_acceptTimeout] at ht
    exact report ht
  | doneTimeout m =>
    rw [exec_doneTimeout] at ht
    exact report ht
  | clockAdvance =>
    rw [exec_clockAdvance] at ht
    exact h.clockAdvance ht hs
  | closeTimeReached k =>
    rw [exec_closeTimeReached] at ht
    exact report ht
  | cutoffReached k =>
    rw [exec_cutoffReached] at ht
    exact report ht
  | forwardFrame p f =>
    rw [exec_forwardFrame] at ht
    exact h.forwardFrame ht hs
  | discardFrame p f =>
    rw [exec_discardFrame] at ht
    cases ht
    exact hs
  | transmissionEnd p hub unit =>
    rw [exec_transmissionEnd] at ht
    exact h.transmissionEnd ht hs
  | pinReset hub unit =>
    rw [exec_pinReset] at ht
    cases ht
    exact h.pinReset _ _ hs
  | mgmtFrame src body =>
    rw [exec_mgmtFrame] at ht
    exact h.mgmtFrame ht hs
  | badRequestCode code params =>
    rw [exec_badRequestCode] at ht
    exact request ht trivial
  | readPallet l =>
    rw [exec_readPallet] at ht
    exact read ht (readPallet_readsOnly l)
  | probe k x =>
    rw [exec_probe] at ht
    exact read ht fun _ => .inr ⟨_, rfl⟩
  | putZone f l depot hold =>
    rw [exec_putZone] at ht
    exact request ht (h.putZone _ _ _ _ hs)
  | dropZone f =>
    rw [exec_dropZone] at ht
    exact request ht (h.dropZone _ hs)
  | putDepotRow depot cls n a b c d =>
    rw [exec_putDepotRow] at ht
    exact request ht (h.putDepotRow _ _ _ _ hs)
  | dropDepotRow depot cls =>
    rw [exec_dropDepotRow] at ht
    exact request ht (h.dropDepotRow _ _ hs)
  | copyBank =>
    rw [exec_copyBank] at ht
    exact request ht (h.copyBank hs)
  | clearBank =>
    rw [exec_clearBank] at ht
    exact request ht (h.setStandby _ (fun _ _ => Bank.within.empty) hs)
  | switchBank =>
    rw [exec_switchBank] at ht
    exact request ht (h.switchBank hs)
  | readZone role z =>
    rw [exec_readZone] at ht
    exact read ht (readZone_readsOnly role z)
  | readDepotRow role depot cls =>
    rw [exec_readDepotRow] at ht
    exact read ht (readDepotRow_readsOnly role depot cls)
  | startShift time =>
    rw [exec_startShift] at ht
    exact request ht (h.startShift _ hs)
  | stopShift =>
    rw [exec_stopShift] at ht
    exact request ht (h.clock _ id hs)
  | readClock =>
    rw [exec_readClock] at ht
    exact read ht fun _ => .inr ⟨_, rfl⟩
  | putTrailerClass cls n p f a tk ta kl al pl =>
    rw [exec_putTrailerClass] at ht
    exact request ht (h.putTrailerClass _ _ hs)
  | readTrailerClass cls =>
    rw [exec_readTrailerClass] at ht
    exact read ht (readTrailerClass_readsOnly _)
  | putTrunk k da db cls cut m =>
    rw [exec_putTrunk] at ht
    exact request ht (h.putTrunk _ _ _ _ _ _ hs)
  | setCutoff k cut m =>
    rw [exec_setCutoff] at ht
    exact request ht (h.setCutoff _ _ _ hs)
  | dropTrunk k =>
    rw [exec_dropTrunk] at ht
    exact request ht (h.dropTrunk _ hs)
  | placeActive k d mode =>
    rw [exec_placeActive] at ht
    exact request ht (h.placeActiveRule _ _ _ hs)
  | placeNext k d =>
    rw [exec_placeNext] at ht
    exact request ht (h.placeNextRule _ _ hs)
  | depart k =>
    rw [exec_depart] at ht
    exact request ht (h.departTrunk _ hs)
  | setDoor d a b c e =>
    rw [exec_setDoor] at ht
    exact request ht (h.setDoor _ _ _ _ _ hs)
  | readTrunk k start =>
    rw [exec_readTrunk] at ht
    exact read ht (readTrunk_readsOnly _ _)
  | readDoor d =>
    rw [exec_readDoor] at ht
    exact read ht (readDoor_readsOnly _)
  | readMover m =>
    rw [exec_readMover] at ht
    exact read ht (readMover_readsOnly _)
  | forceRelease d =>
    rw [exec_forceRelease] at ht
    exact request ht (h.forceRelease _ hs)
  | removePallet l =>
    rw [exec_removePallet] at ht
    exact request ht (h.removePallet _ hs)
  | clearNotice set =>
    rw [exec_clearNotice] at ht
    exact request ht (h.modConditions _ _ hs)
  | testNotice v =>
    rw [exec_testNotice] at ht
    exact request ht (h.raise _ _ hs)
  | setNotice set a b both keep =>
    rw [exec_setNotice] at ht
    exact request ht (h.setNotice _ _ _ _ _ hs)
  | setChannel ch pr a =>
    rw [exec_setChannel] at ht
    exact request ht (h.setChannel _ _ _ hs)
  | readNotices =>
    rw [exec_readNotices] at ht
    exact read ht fun _ => .inr ⟨_, rfl⟩
  | setLimits rw at' dn al th hw =>
    rw [exec_setLimits] at ht
    exact request ht (h.setLimits _ hs)
  | setOutputs a =>
    rw [exec_setOutputs] at ht
    exact request ht (h.settings _ _ _ _ _ _ _ _ _ _ _ hs)
  | readSettings =>
    rw [exec_readSettings] at ht
    exact read ht fun _ => .inr ⟨_, rfl⟩
  | restartFull k =>
    rw [exec_restartFull] at ht
    exact h.takeRestart ht hs
  | restartFloor =>
    rw [exec_restartFloor] at ht
    exact h.takeRestart ht hs

/-- Every step keeps the property. -/
theorem step (h : Written P) (ht : Machine.step s = .next t) (hs : P s) : P t := by
  unfold Machine.step at ht
  split at ht
  · exact h.idle ht hs
  · exact h.exec ht (h.settings _ _ _ _ _ _ _ _ _ _ _ hs)

end Written
end Sys2Proof.Machine

/-! The two invariants of every step: a safe state stays safe (O13), and doors and trunks that agree stay in agreement. -/

namespace Sys2Proof.Machine

variable {s t : State}

/-! ## Resets -/

theorem State.Safe.reset : State.reset.Safe where
  floor := ⟨by decide, by decide⟩
  yard := ⟨by decide, by decide⟩
  floorBusy _ := ⟨rfl, rfl⟩
  yardBusy _ := ⟨rfl, rfl⟩
  repeats := by decide
  bank0 := .empty
  bank1 := .empty
  clock := Nat.zero_le _
  frames := by decide
  turn := .inl rfl
  left := by simp [State.reset]
  pallets := ⟨rfl, by decide⟩
  trunks := ⟨rfl, by simp [State.reset]⟩
  classes := ⟨rfl, by simp [State.reset]⟩
  counter := by decide
  lastMove := by decide
  rotation := ⟨.refl _, .refl _⟩

/-- A transmit side that only transmits is within its capacities. -/
theorem PortState.within_sending (x : Option TxFrame) :
    ({ sending := x } : PortState).within ∧ ({ sending := x } : PortState).busyWhenQueued :=
  ⟨⟨by simp, by simp⟩, fun _ => ⟨rfl, rfl⟩⟩

namespace State.Safe

theorem withSettings (h : s.Safe) (active conditions limits keepAll a b address restart pending
    answer n) : State.Safe { s with
      active := active, conditions := conditions, limits := limits, keepAll := keepAll
      channelA := a, channelB := b, verdictAddress := address, restart := restart
      pending := pending, answer := answer, freeCount := n } :=
  h.of rfl rfl rfl rfl rfl rfl rfl rfl rfl rfl rfl rfl rfl rfl rfl

theorem pinReset (s : State) (hub : Byte) (unit : BitVec 4) : (s.pinReset hub unit).Safe :=
  reset.of rfl rfl rfl rfl rfl rfl rfl rfl rfl rfl rfl rfl rfl rfl rfl

theorem fullRestart (s : State) (hub : Byte) (unit : BitVec 4) : (s.fullRestart hub unit).Safe :=
  have hp := PortState.within_sending s.floor.sending
  (pinReset s hub unit).withPort .floor hp.1 hp.2

theorem executeRestart (h : s.Safe) (k : RestartKind) (hub : Byte) (unit : BitVec 4) :
    (s.executeRestart k hub unit).Safe := by
  obtain ⟨f, y, fb, yb, r, -, -, c, fr, tn, l, p, tr, -, ct, lm, ro⟩ := fullRestart s s.hub s.unit
  cases k with
  | full => exact fullRestart s hub unit
  | floor =>
    exact ⟨f, y, fb, yb, r, h.bank0, h.bank1, c, fr, tn, l, p, tr, h.classes, ct, lm, ro⟩

/-- Every write of the model keeps a state safe. -/
theorem written : Written State.Safe where
  toKept := kept
  addPallet p hl h := h.addPallet p hl
  enterRepeat k n l h := h.enterRepeat k n l
  clock _ hc h := h.withClock (hc h.clock)
  settings _ _ _ _ _ _ _ _ _ _ _ h := h.withSettings ..
  placePass p bs h := h.placePass p bs
  endTransmission p h :=
    h.withPort p (PortState.within_begin (h.portWithin p)) (PortState.busy_begin _)
  beginReply _ h := h.withPort .yard h.yard (by simp [PortState.busyWhenQueued])
  dropDueFrame h := h.dropDueFrame
  joinFrame f hl hf h := by
    refine h.withFrames (by simp; omega) ?_ fun g hg => ?_
    · have := h.turn
      simp
      omega
    · rcases List.mem_append.1 hg with hg | hg
      · exact h.left g hg
      · exact List.mem_singleton.1 hg ▸ hf
  pinReset hub unit _ := pinReset _ hub unit
  executeRestart k hub unit h := h.executeRestart k hub unit
  setStandby b hb h := h.setStandby (hb h.bank0 h.bank1)
  putClass _ _ hn h := h.withClasses (Table.keysIn_put h.classes _ ⟨Nat.zero_le _, hn⟩)
  addTrunk _ _ ht _ _ h := h.withTrunks (Table.keysIn_put h.trunks _ ht)
  doorSettings _ _ _ _ _ _ h := h.withDoors _
  placeActive _ _ _ _ h := (h.withTrunks (Table.keysIn_adjust h.trunks _ _)).withDoors _
  placeNext _ _ _ _ _ h := (h.withTrunks (Table.keysIn_adjust h.trunks _ _)).withDoors _
  replaceNext _ _ _ _ _ _ _ h :=
    have hk := Table.keysIn_adjust h.trunks _ _
    (h.withTrunks (Table.keysIn_adjust hk _ _)).withDoors _

end State.Safe

/-! ## Doors and trunks -/

/-- A door that no record is kept for has the values of a reset door. -/
theorem State.door_of_doors_eq_replicate (h : s.doors = Vector.replicate 48 {}) (d : Nat) :
    s.door d = {} := by
  unfold State.door nth
  rw [h]
  split
  · rfl
  · simp only [Vector.getD, Vector.toArray_replicate, Array.getD_eq_getD_getElem?,
      Array.getElem?_replicate]
    split <;> rfl

theorem State.door_floorRestart (s : State) (d : Nat) :
    s.floorRestart.door d = (s.door d).floorReset := by
  unfold State.door nth State.floorRestart
  split
  · rfl
  · simp only [Vector.getD, Vector.toArray_map, Array.getD_eq_getD_getElem?, Array.getElem?_map]
    cases s.doors.toArray[d - 1]? <;> rfl

namespace State.Agreed

theorem of_reset (hd : t.doors = Vector.replicate 48 {}) (hk : t.trunks = []) : t.Agreed := by
  have hdoor := State.door_of_doors_eq_replicate hd
  refine ⟨by rw [hk]; rfl, ⟨fun d => ?_, fun d k => ?_, fun d k => ?_, fun d => ?_⟩⟩ <;>
    simp [hdoor, State.trunk?, hk]

theorem floorRestart (s : State) : s.floorRestart.Agreed := by
  have hk : s.floorRestart.trunks = [] := rfl
  refine ⟨rfl, ⟨fun d => ?_, fun d k => ?_, fun d k => ?_, fun d => ?_⟩⟩ <;>
    simp [State.door_floorRestart, Door.floorReset, State.trunk?, hk]

/-- A new trunk record, which stands at no door. -/
theorem addTrunk (h : s.Agreed) {k : Nat} {r : Trunk} (hk : s.trunk? k = none)
    (hr : r.placement = .unplaced) : (s.addTrunk k r).Agreed := by
  have placed (j : Nat) : (s.addTrunk k r).placed j = if j = k then some .unplaced
      else s.placed j := by
    unfold State.placed State.trunk?
    rw [State.addTrunk_trunks, Table.get?_put]
    split <;> simp [hr]
  have iff (p : Placement) (hp : p ≠ .unplaced) (j : Nat) :
      s.placed j = some p ↔ (s.addTrunk k r).placed j = some p := by
    rw [placed]
    split
    · subst j; simp [State.placed, hk, hp.symm]
    · rfl
  exact ⟨Table.wf_put h.1 _ _, h.2.claims, fun d j => (h.2.active d j).trans (iff (.active d) (fun e => nomatch e) j),
    fun d j => (h.2.next d j).trans (iff (.next d) (fun e => nomatch e) j), h.2.pending⟩

/-- A trunk that passes the tests of R53 for door `d` has a record and stands at no other door. -/
theorem placed_of_placeTests {k d : Nat} (h : placeTests k d true s = none) :
    (1 ≤ d ∧ d ≤ 48) ∧
      (s.placed k = some .unplaced ∨ s.placed k = some (.active d) ∨ s.placed k = some (.next d)) := by
  unfold placeTests at h
  split at h
  · cases h
  · rename_i hr
    simp only [isDoorNumber, Bool.not_true, Bool.or_false, Bool.or_eq_true, Bool.not_eq_true',
      Bool.and_eq_false_iff, decide_eq_false_iff_not, not_or, not_not] at hr
    refine ⟨hr.2, ?_⟩
    split at h
    · cases h
    · rename_i r hk
      split at h
      · cases h
      · split at h
        · cases h
        · rename_i hd
          unfold State.placed
          rw [hk]
          unfold Trunk.door? at hd
          cases hp : r.placement <;> simp_all

/-- Door `d` and the placements change so that the door names as active and as next exactly the trunks
placed there so, and no trunk comes to or leaves another door. -/
theorem doorChanges (h : s.Agreed) {t' : State} {d : Nat} {x : Door} {p : Nat → Option Placement}
    (hw : t'.trunks.wf = true) (hd : ∀ e, t'.door e = if e = d then x else s.door e)
    (hk : ∀ k, t'.placed k = p k) (hc : x.claims ≤ x.slots) (hx : x.nextPending = x.next.isSome)
    (ha : ∀ k, x.active = some k ↔ p k = some (.active d))
    (hn : ∀ k, x.next = some k ↔ p k = some (.next d))
    (ho : ∀ e, e ≠ d → ∀ k, (p k = some (.active e) ↔ s.placed k = some (.active e)) ∧
      (p k = some (.next e) ↔ s.placed k = some (.next e))) : t'.Agreed := by
  refine ⟨hw, ⟨fun e => ?_, fun e k => ?_, fun e k => ?_, fun e => ?_⟩⟩ <;> rw [hd] <;> split
  · exact hc
  · exact h.2.claims e
  · subst e; exact (ha k).trans (iff_of_eq (congrArg (· = _) (hk k).symm))
  · exact (h.2.active e k).trans
      ((ho e ‹_› k).1.symm.trans (iff_of_eq (congrArg (· = _) (hk k).symm)))
  · subst e; exact (hn k).trans (iff_of_eq (congrArg (· = _) (hk k).symm))
  · exact (h.2.next e k).trans
      ((ho e ‹_› k).2.symm.trans (iff_of_eq (congrArg (· = _) (hk k).symm)))
  · exact hx
  · exact h.2.pending e

/-- Trunk `k`, placed at no other door, becomes the active trunk of door `d`, which has none. -/
theorem placeActive (h : s.Agreed) {k d : Nat} (ht : placeTests k d true s = none)
    (ha : (s.door d).active = none) : (s.placeActive k d).Agreed := by
  obtain ⟨hd, hp⟩ := placed_of_placeTests ht
  have hact (j) : (s.door d).active = some j ↔ s.placed j = some (.active d) := h.2.active d j
  have hnext (j) : (s.door d).next = some j ↔ s.placed j = some (.next d) := h.2.next d j
  have hpend := h.2.pending d
  refine h.doorChanges (x := if (s.door d).next = some k then
      { s.door d with active := some k, next := none, nextPending := false }
    else { s.door d with active := some k }) (Table.wf_adjust h.1 _ _)
    (State.door_modDoor _ d · _ hd.1 hd.2) (State.placed_modTrunk s k · fun _ => rfl)
    ?_ ?_ (fun j => ?_) (fun j => ?_) fun e he j => ?_
  · have := h.2.claims d
    grind
  · grind
  · grind
  · grind
  · grind

/-- Trunk `k`, placed at no other door, becomes the next trunk of door `d`, which has none. -/
theorem placeNext (h : s.Agreed) {k d : Nat} (ht : placeTests k d true s = none)
    (hn : (s.door d).next = none) (ha : (s.door d).active ≠ some k) : (s.placeNext k d).Agreed := by
  obtain ⟨hd, hp⟩ := placed_of_placeTests ht
  have hact (j) : (s.door d).active = some j ↔ s.placed j = some (.active d) := h.2.active d j
  have hnext (j) : (s.door d).next = some j ↔ s.placed j = some (.next d) := h.2.next d j
  refine h.doorChanges (x := { s.door d with next := some k, nextPending := true })
    (Table.wf_adjust h.1 _ _) (State.door_modDoor _ d · _ hd.1 hd.2)
    (State.placed_modTrunk s k · fun _ => rfl) (h.2.claims d) rfl
    (fun j => ?_) (fun j => ?_) fun e he j => ?_
  · grind
  · grind
  · grind

/-- Trunk `k`, placed at no other door, replaces the next trunk `u` of door `d`. -/
theorem replaceNext (h : s.Agreed) {k u d : Nat} (ht : placeTests k d true s = none)
    (hu : (s.door d).next = some u) (hku : k ≠ u) (ha : (s.door d).active ≠ some k) :
    ((s.modTrunk u fun r => { r with placement := .unplaced }).placeNext k d).Agreed := by
  obtain ⟨hd, hp⟩ := placed_of_placeTests ht
  have hact (j) : (s.door d).active = some j ↔ s.placed j = some (.active d) := h.2.active d j
  have hnext (j) : (s.door d).next = some j ↔ s.placed j = some (.next d) := h.2.next d j
  have hmod (j) := State.placed_modTrunk s u j (p := .unplaced)
    (f := fun r => { r with placement := .unplaced }) fun _ => rfl
  have hplaced (j) : ((s.modTrunk u fun r => { r with placement := .unplaced }).placeNext k d).placed j =
      if j = k then some (.next d) else if j = u then some .unplaced else s.placed j := by
    refine (State.placed_modTrunk _ k j (p := .next d) (f := fun r => { r with placement := .next d })
      fun _ => rfl).trans ?_
    rw [hmod, hmod]
    grind
  refine h.doorChanges (x := { s.door d with next := some k, nextPending := true })
    (p := fun j => if j = k then some (.next d) else if j = u then some .unplaced else s.placed j)
    (Table.wf_adjust (Table.wf_adjust h.1 _ _) _ _) (State.door_modDoor _ d · _ hd.1 hd.2)
    hplaced (h.2.claims d) rfl (fun j => ?_) (fun j => ?_) fun e he j => ?_
  · grind
  · grind
  · grind

/-- Every write of the model keeps the agreement. -/
theorem written : Written State.Agreed where
  toKept := kept
  addPallet _ _ h := h.same rfl rfl
  enterRepeat _ _ _ h := h.same rfl rfl
  clock _ _ h := h.same rfl rfl
  settings _ _ _ _ _ _ _ _ _ _ _ h := h.same rfl rfl
  placePass p bs h := h.same (State.placePass_doors ..) (State.placePass_trunks ..)
  endTransmission p h := h.same (State.setPort_doors ..) (State.setPort_trunks ..)
  beginReply _ h := h.same rfl rfl
  dropDueFrame h := h.same rfl rfl
  joinFrame _ _ _ h := h.same rfl rfl
  pinReset _ _ _ := of_reset rfl rfl
  executeRestart k hub unit h := by
    cases k with
    | full => exact of_reset rfl rfl
    | floor => exact floorRestart _
  setStandby _ _ h := h.same (State.setStandby_doors ..) (State.setStandby_trunks ..)
  putClass _ _ _ h := h.same rfl rfl
  addTrunk _ _ _ hk hr h := h.addTrunk hk hr
  doorSettings d _ _ _ _ hc h := h.modDoor d _ (fun _ => hc) ⟨rfl, rfl, rfl⟩
  placeActive _ _ ht ha h := h.placeActive ht ha
  placeNext _ _ ht hn ha h := h.placeNext ht hn ha
  replaceNext _ _ _ ht hu hku ha h := h.replaceNext ht hu hku ha

end State.Agreed

/-! ## The statements -/

/-- Settles O14: each bound of the safe state, read off the reset values. -/
theorem resetIsSafe : Obligations.ResetIsSafe := State.Safe.reset

/-- Settles O13: `State.Safe.written` for one step. -/
theorem everyStepKeepsTheStateSafe : Obligations.EveryStepKeepsTheStateSafe :=
  fun _ _ hs ht => State.Safe.written.step ht hs

/-- Every step from a safe state keeps doors and trunks in agreement (R52). -/
theorem State.DoorsAgree.step (hs : s.Safe) (hd : s.DoorsAgree) (ht : Machine.step s = .next t) :
    t.DoorsAgree :=
  (State.Agreed.written.step ht ⟨hs.trunks.1, hd⟩).2

end Sys2Proof.Machine

/-! What the floor and the deadlines cannot change (O15): no write of an event, and none of a scan's repeat entry or record, changes a setting. -/

namespace Sys2Proof.Machine

variable {s t u : State}

namespace State.KeepsSettings

theorem refl (s : State) : KeepsSettings s s :=
  ⟨rfl, rfl, rfl, rfl, rfl, rfl, rfl, rfl, rfl, rfl, rfl, rfl, rfl, fun _ => ⟨rfl, rfl, rfl, rfl⟩,
    fun _ => ⟨rfl, rfl, rfl⟩⟩

theorem trans (h : KeepsSettings s t) (h' : KeepsSettings t u) : KeepsSettings s u where
  hub := h'.hub.trans h.hub
  unit := h'.unit.trans h.unit
  bank0 := h'.bank0.trans h.bank0
  bank1 := h'.bank1.trans h.bank1
  active := h'.active.trans h.active
  clock := h'.clock.trans h.clock
  classes := h'.classes.trans h.classes
  keepAll := h'.keepAll.trans h.keepAll
  channelA := h'.channelA.trans h.channelA
  channelB := h'.channelB.trans h.channelB
  limits := h'.limits.trans h.limits
  verdictAddress := h'.verdictAddress.trans h.verdictAddress
  restart := h'.restart.trans h.restart
  doors d :=
    have ⟨a, b, c, e⟩ := h.doors d
    have ⟨a', b', c', e'⟩ := h'.doors d
    ⟨a'.trans a, b'.trans b, c'.trans c, e'.trans e⟩
  conditions d :=
    have ⟨a, b, c⟩ := h.conditions d
    have ⟨a', b', c'⟩ := h'.conditions d
    ⟨a'.trans a, b'.trans b, c'.trans c⟩

/-- A write of fields that are no settings. -/
theorem data (floor yard repeats pallets trunks bookingCounter movers freeList queues lastMove urgent
    normal bursts frames turn pending answer freeCount) : KeepsSettings s { s with
      floor := floor, yard := yard, repeats := repeats, pallets := pallets, trunks := trunks
      bookingCounter := bookingCounter, movers := movers, freeList := freeList, queues := queues
      lastMove := lastMove, urgent := urgent, normal := normal, bursts := bursts, frames := frames
      turn := turn, pending := pending, answer := answer, freeCount := freeCount } :=
  ⟨rfl, rfl, rfl, rfl, rfl, rfl, rfl, rfl, rfl, rfl, rfl, rfl, rfl, fun _ => ⟨rfl, rfl, rfl, rfl⟩,
    fun _ => ⟨rfl, rfl, rfl⟩⟩

theorem modDoor (d : Nat) (f : Door → Door) (hf : ∀ x, (f x).slots = x.slots ∧
    (f x).reserve = x.reserve ∧ (f x).depth = x.depth ∧ (f x).burst = x.burst) :
    KeepsSettings s (s.modDoor d f) := by
  refine ⟨rfl, rfl, rfl, rfl, rfl, rfl, rfl, rfl, rfl, rfl, rfl, rfl, rfl, fun e => ?_,
    fun _ => ⟨rfl, rfl, rfl⟩⟩
  rcases s.door_modDoor_cases d e f with h | ⟨rfl, h⟩ <;> rw [h]
  · exact ⟨rfl, rfl, rfl, rfl⟩
  · exact hf _

theorem modCondition (c : CondName) (f : Condition → Condition) (hf : ∀ r, (f r).enableA = r.enableA ∧
    (f r).enableB = r.enableB ∧ (f r).bothWays = r.bothWays) :
    KeepsSettings s (s.modCondition c f) := by
  refine ⟨rfl, rfl, rfl, rfl, rfl, rfl, rfl, rfl, rfl, rfl, rfl, rfl, rfl,
    fun _ => ⟨rfl, rfl, rfl, rfl⟩, fun d => ?_⟩
  rw [State.condition_modCondition]
  split
  · subst d; exact hf _
  · exact ⟨rfl, rfl, rfl⟩

theorem setPort (p : Port) (x : PortState) : KeepsSettings s (s.setPort p x) := by
  cases p <;> exact data ..

theorem placeOwn (p : Port) (d : Address) (b : OwnBody) : KeepsSettings s (s.placeOwn p d b) := by
  rcases s.placeOwn_cases p d b with ⟨-, e⟩ | ⟨-, e⟩ <;> rw [e]
  · exact refl s
  · exact setPort ..

/-- The writes of an event keep the settings of the state it began with. -/
theorem kept (s : State) : Kept (KeepsSettings s) where
  modPallet _ _ h := h.trans (data ..)
  dropPallet _ h := h.trans (data ..)
  modTrunk _ _ _ h := h.trans (data ..)
  removeTrunk t h := by
    unfold State.removeTrunk
    split
    · exact h.trans (data ..)
    · exact h
  counter h := h.trans (data ..)
  claimUp _ _ h := h.trans (modDoor _ _ fun _ => ⟨rfl, rfl, rfl, rfl⟩)
  claimDown _ h := h.trans (modDoor _ _ fun _ => ⟨rfl, rfl, rfl, rfl⟩)
  hold _ _ h := h.trans (modDoor _ _ fun _ => ⟨rfl, rfl, rfl, rfl⟩)
  handOver {v} t d _ h := by
    unfold State.handOver
    dsimp only
    have left := (h.trans (data .. : KeepsSettings v (v.modTrunk t fun r => { r with placement := .unplaced }))).trans
      (modDoor d (fun x => { x with
        active := (v.door d).next, next := none, nextPending := false, hold := false })
        fun _ => ⟨rfl, rfl, rfl, rfl⟩)
    split
    · exact left.trans (data ..)
    · exact left
  unplaceNext {v} t d _ h := (h.trans (data .. : KeepsSettings v (v.modTrunk t _))).trans
    (modDoor _ _ fun _ => ⟨rfl, rfl, rfl, rfl⟩)
  movers _ h := h.trans (data ..)
  freeList _ h := h.trans (data ..)
  queues _ h := h.trans (data ..)
  lastMove _ _ h := h.trans (data ..)
  countBurst q _ h := by
    unfold State.countBurst
    dsimp only
    split <;> exact h.trans (data ..)
  modCondition c f hf h := h.trans (modCondition c f hf)
  placeOwn p d b h := h.trans (placeOwn p d b)
  giveResult {v} due r x h := by
    have answered : KeepsSettings s { v with answer := some ⟨r, x⟩ } := h.trans (data ..)
    unfold State.giveResult
    dsimp only
    split
    · split
      · exact (answered.trans (data .. : KeepsSettings _ (State.dropDueFrame _))).trans (placeOwn ..)
      · exact answered.trans (data ..)
    · exact answered

end State.KeepsSettings

/-- A scan keeps the settings. -/
theorem takeScan_keepsSettings {src : Address} {kind : Byte} {scan : ScanFields}
    (h : takeScan src kind scan s = .next t) : s.KeepsSettings t :=
  (State.KeepsSettings.kept s).takeScan (fun _ _ h => h.trans (.data ..))
    (fun _ _ _ h => h.trans (.data ..)) h (.refl s)

/-- A report of the clock that a deadline's command brings keeps the settings. -/
theorem report_keepsSettings {b : Bool} {ws : List Work}
    (h : (if b then runEvent { s := s, work := ws } else .next s) = .next t) :
    s.KeepsSettings t := by
  split at h
  · exact (State.KeepsSettings.kept s).runEvent (e := { s := s, work := ws }) (.refl s) h
  · cases h; exact .refl s

/-- A command from the floor keeps the settings. -/
theorem exec_fromFloor_keepsSettings {c : Instr} (hc : c.fromFloor = true)
    (h : exec c s = .next t) : s.KeepsSettings t := by
  have k := State.KeepsSettings.kept s
  have r := State.KeepsSettings.refl s
  cases c with
  | intakeScan => rw [exec_intakeScan] at h; exact takeScan_keepsSettings h
  | laneScan => rw [exec_laneScan] at h; exact takeScan_keepsSettings h
  | loadScan => rw [exec_loadScan] at h; exact takeScan_keepsSettings h
  | reworkScan => rw [exec_reworkScan] at h; exact takeScan_keepsSettings h
  | badPlaceKindScan => rw [exec_badPlaceKindScan] at h; exact takeScan_keepsSettings h
  | signOn src => exact k.takeTerminal (fun m => k.signOn src m r) (exec_signOn .. ▸ h) r
  | signOff => exact k.takeTerminal (fun m => k.signOff m r) (exec_signOff .. ▸ h) r
  | accept => exact k.takeTerminal (fun m => k.acceptFrame m _ r) (exec_accept .. ▸ h) r
  | decline => exact k.takeTerminal (fun m => k.declineFrame m _ r) (exec_decline .. ▸ h) r
  | abandon => exact k.takeTerminal (fun m => k.abandonFrame m _ r) (exec_abandon .. ▸ h) r
  | _ => cases hc

/-- Settles O15: the settings are kept by every write of an event (`State.KeepsSettings.kept`), and
neither a scan, a terminal frame nor a deadline's report writes anything else but data. -/
theorem floorAndDeadlinesChangeNoSettings : Obligations.FloorAndDeadlinesChangeNoSettings := by
  rintro c s t (hc | ⟨m, rfl⟩ | ⟨m, rfl⟩ | ⟨k, rfl⟩ | ⟨k, rfl⟩) h
  · exact exec_fromFloor_keepsSettings hc h
  · exact report_keepsSettings (exec_acceptTimeout .. ▸ h)
  · exact report_keepsSettings (exec_doneTimeout .. ▸ h)
  · exact report_keepsSettings (exec_closeTimeReached .. ▸ h)
  · exact report_keepsSettings (exec_cutoffReached .. ▸ h)

end Sys2Proof.Machine

/-! The grant pass (chapter 5): its two lists of grants as one list in which each label has its own test, what a run of that list leaves, and what a pass cannot change. -/

namespace Sys2Proof.Machine

variable {s t u : State}

/-! ## One list of grants -/

/-- A test of a pass (R86). -/
abbrev PassTest := State → Nat → Bool

/-- Offers claims in order to labels, each under its own test; it ends at the first refusal. -/
def grantEach (d : Nat) (active : Option Nat) : List (Label × PassTest) → PassResult → PassResult × Bool
  | [], r => (r, true)
  | x :: xs, r =>
      if x.2 r.state d then
        grantEach d active xs
          { state := (r.state.grantClaim x.1 d).1
            staged := r.staged || ((r.state.grantClaim x.1 d).2.1 && (active.isSome &&
              ((r.state.grantClaim x.1 d).1.pallet? x.1).bind Pallet.trunk = active))
            doors := r.doors ++ (r.state.grantClaim x.1 d).2.2.toList }
      else (r, false)

theorem grantList_eq_grantEach (d : Nat) (active : Option Nat) (test : PassTest) (ls : List Label)
    (r : PassResult) : grantList d active test ls r = grantEach d active (ls.map (·, test)) r := by
  induction ls generalizing r with
  | nil => rfl
  | cons l ls ih =>
    unfold grantList
    rw [List.map_cons, grantEach]
    split
    · exact ih _
    · rfl

theorem grantEach_append (d : Nat) (active : Option Nat) (xs ys : List (Label × PassTest))
    (r : PassResult) : grantEach d active (xs ++ ys) r =
      if (grantEach d active xs r).2 then grantEach d active ys (grantEach d active xs r).1
      else grantEach d active xs r := by
  induction xs generalizing r with
  | nil => simp [grantEach]
  | cons x xs ih =>
    rw [List.cons_append, grantEach, grantEach]
    split
    · exact ih _
    · simp

/-- The state after claims at door `d` are granted to labels in order. -/
def State.afterGrants (s : State) (d : Nat) (ls : List Label) : State :=
  ls.foldl (fun v l => (v.grantClaim l d).1) s

/-- How far a list of grants runs and what it leaves (R86, R88): it takes the first `n` labels, each
under its test, and stops at the end or where the next one's test fails. -/
theorem grantEach_run (d : Nat) (active : Option Nat) (xs : List (Label × PassTest))
    (r : PassResult) : ∃ n, n ≤ xs.length ∧
      let after (k : Nat) : State := r.state.afterGrants d ((xs.map Prod.fst).take k)
      (grantEach d active xs r).1.state = after n ∧
      (∀ k x, k < n → xs[k]? = some x → x.2 (after k) d = true) ∧
      (∀ x, xs[n]? = some x → x.2 (after n) d = false) ∧
      (grantEach d active xs r).1.doors = r.doors ++ (List.range n).flatMap (fun k =>
        match (xs.map Prod.fst)[k]? with
        | some l => ((after k).grantClaim l d).2.2.toList
        | none => []) ∧
      ((grantEach d active xs r).1.staged = true ↔ r.staged = true ∨
        ∃ k l, k < n ∧ (xs.map Prod.fst)[k]? = some l ∧ ((after k).grantClaim l d).2.1 = true ∧
          active.isSome ∧ ((after (k + 1)).pallet? l).bind Pallet.trunk = active) := by
  induction xs generalizing r with
  | nil => exact ⟨0, Nat.le_refl _, rfl, by simp, by simp, by simp [grantEach], by simp [grantEach]⟩
  | cons x xs ih =>
    by_cases hx : x.2 r.state d = true
    · obtain ⟨n, hn, hstate, hroom, hstop, hdoors, hstaged⟩ := ih
        { state := (r.state.grantClaim x.1 d).1
          staged := r.staged || ((r.state.grantClaim x.1 d).2.1 && (active.isSome &&
            ((r.state.grantClaim x.1 d).1.pallet? x.1).bind Pallet.trunk = active))
          doors := r.doors ++ (r.state.grantClaim x.1 d).2.2.toList }
      refine ⟨n + 1, by simpa using hn, ?_⟩
      rw [grantEach, if_pos hx]
      refine ⟨hstate, ?_, hstop, ?_, ?_⟩
      · intro k y hk hy
        cases k with
        | zero => cases hy; exact hx
        | succ k => exact hroom k y (by omega) hy
      · rw [hdoors, List.range_succ_eq_map, List.flatMap_cons, List.flatMap_map]
        simp only [List.append_assoc]
        rfl
      · rw [hstaged]
        constructor
        · rintro (h | ⟨k, l, hk, hl, h⟩)
          · simp only [Bool.or_eq_true, Bool.and_eq_true, decide_eq_true_eq] at h
            exact h.imp_right fun h => ⟨0, x.1, by omega, rfl, h⟩
          · exact .inr ⟨k + 1, l, by omega, hl, h⟩
        · rintro (h | ⟨k, l, hk, hl, h⟩)
          · exact .inl (by simp [h])
          · cases k with
            | zero =>
              cases hl
              exact .inl (by simpa using .inr h)
            | succ k => exact .inr ⟨k, l, by omega, hl, h⟩
    · refine ⟨0, Nat.zero_le _, ?_⟩
      rw [grantEach, if_neg hx]
      refine ⟨rfl, by simp, ?_, by simp, by simp⟩
      intro y hy
      cases hy
      exact Bool.eq_false_iff.2 hx

/-- The labels a pass at door `d` offers claims to, in order, with their tests (R86): `start` is the
state after the carry-over, `serving` the active trunk it serves and `drop` that trunk's loading drop. -/
def State.passOffers (start : State) (serving next : Option Nat) (drop : Drop) :
    List (Label × PassTest) :=
  (start.waiting serving (· = drop)).map (·, State.roomForLoading) ++
    (start.waiting serving (· ≠ drop) ++ start.waiting next fun _ => true).map
      (·, State.roomAboveReserve)

/-- A pass is its carry-over and then one list of grants (R86). -/
theorem State.grantPass_eq_grantEach (s : State) (d : Nat) :
    let x := s.door d
    let start := (s.carryOverAll x.active d).carryOverAll x.next d
    let serving := s.passTrunk d
    let drop := ((serving.bind s.trunk?).map Trunk.loadingDrop).getD .a
    s.grantPass d = (grantEach d x.active (start.passOffers serving x.next drop)
      { state := start, staged := s.hasCarryOver x.active d }).1 := by
  intro x start serving drop
  rw [State.passOffers, grantEach_append, ← grantList_eq_grantEach, ← grantList_eq_grantEach]
  exact (apply_ite Prod.fst _ _ _).symm

/-! ## The carry-over (R76, R86) -/

theorem Pallet.carriesOver_iff (p : Pallet) (d : Nat) : p.carriesOver d = true ↔
    p.state = .held ∧ p.location = .lane d ∧ p.claimDoor = some d := by
  simp [Pallet.carriesOver, and_assoc]

theorem State.hasCarryOver_iff (s : State) (a : Option Nat) (d : Nat) :
    s.hasCarryOver a d = true ↔ ∃ t r, a = some t ∧ s.trunk? t = some r ∧ ∃ l ∈ r.held,
      ∃ p, s.pallet? l = some p ∧ p.state = .held ∧ p.location = .lane d ∧ p.claimDoor = some d := by
  unfold State.hasCarryOver
  cases a with
  | none => simp
  | some t =>
    cases hr : s.trunk? t with
    | none => simp [hr]
    | some r => simp [hr, Pallet.carriesOver_iff, Option.any_eq_true]

theorem State.carryOver_eq (s : State) (t d : Nat) (l : Label) : s.carryOver t d l =
    match s.pallet? l with
    | some p =>
        if p.state = .held ∧ p.location = .lane d ∧ p.claimDoor = some d then
          (s.modTrunk t fun r => { r with held := r.held.filter (· ≠ l) }).modPallet l fun p =>
            { p with state := .staged }
        else s
    | none => s := by
  unfold State.carryOver
  simp only [← Pallet.carriesOver_iff]
  rfl

/-! ## What a pass leaves (R84, R86) -/

/-- What a pass leaves as it was: the claims within the slots, every door but for its claims, and every
trunk but for its held list. -/
structure State.OnlyClaims (s t : State) : Prop where
  within : ∀ e, (t.door e).claims ≤ (t.door e).slots
  doors : ∀ e, { t.door e with claims := 0 } = { s.door e with claims := 0 }
  trunks : ∀ k, (t.trunk? k).map (fun r => { r with held := [] }) =
    (s.trunk? k).map fun r => { r with held := [] }

namespace State.OnlyClaims

/-- A write of neither doors nor trunks. -/
theorem same (h : s.OnlyClaims t) (hd : u.doors = t.doors) (hk : u.trunks = t.trunks) :
    s.OnlyClaims u := by
  have door (e) : u.door e = t.door e := by unfold State.door; rw [hd]
  have trunk (k) : u.trunk? k = t.trunk? k := by unfold State.trunk?; rw [hk]
  exact ⟨fun e => door e ▸ h.within e, fun e => door e ▸ h.doors e, fun k => trunk k ▸ h.trunks k⟩

theorem modPallet (h : s.OnlyClaims t) (l : Label) (f : Pallet → Pallet) :
    s.OnlyClaims (t.modPallet l f) := h.same rfl rfl

theorem leaveHeld (h : s.OnlyClaims t) (k : Nat) (l : Label) : s.OnlyClaims (t.leaveHeld k l) := by
  refine ⟨h.within, h.doors, fun j => Eq.trans ?_ (h.trunks j)⟩
  unfold State.leaveHeld
  rw [State.trunk?_modTrunk]
  split
  · subst j; cases t.trunk? k <;> rfl
  · rfl

/-- A change of a door's claims that keeps them within its slots. -/
theorem claims (h : s.OnlyClaims t) (d : Nat) (f : Door → Door)
    (hf : ∀ x : Door, ({ f x with claims := 0 } : Door) = { x with claims := 0 })
    (hc : (f (t.door d)).claims ≤ (t.door d).slots) : s.OnlyClaims (t.modDoor d f) := by
  have slots : (f (t.door d)).slots = (t.door d).slots := (Door.mk.inj (hf (t.door d))).1
  refine ⟨fun e => ?_, fun e => ?_, h.trunks⟩ <;>
    rcases t.door_modDoor_cases d e f with he | ⟨rfl, he⟩ <;> rw [he]
  · exact h.within e
  · exact slots ▸ hc
  · exact h.doors e
  · exact (hf _).trans (h.doors e)

theorem takeClaim (h : s.OnlyClaims t) {l : Label} {d : Nat} (hr : t.roomForLoading d = true) :
    s.OnlyClaims (t.takeClaim l d) :=
  (h.claims d (fun x => { x with claims := x.claims + 1 }) (fun _ => rfl)
    (of_decide_eq_true hr)).modPallet _ _

theorem releaseClaim (h : s.OnlyClaims t) (l : Label) : s.OnlyClaims (t.releaseClaim l) := by
  unfold State.releaseClaim
  split
  · exact h
  · exact (h.claims _ (fun x => { x with claims := x.claims - 1 }) (fun _ => rfl)
      ((Nat.sub_le _ _).trans (h.within _))).modPallet _ _

theorem makeMove (h : s.OnlyClaims t) (l k a b q) : s.OnlyClaims (t.makeMove l k a b q) :=
  h.same rfl rfl

/-- A grant of a claim for which the door has room. -/
theorem grantClaim (h : s.OnlyClaims t) {l : Label} {d : Nat} (hr : t.roomForLoading d = true) :
    s.OnlyClaims (t.grantClaim l d).1 := by
  unfold State.grantClaim
  split
  · exact h
  · rename_i p _
    split
    · exact h.takeClaim hr
    · dsimp only
      have left : ∀ v, v = (match p.trunk with
          | some k => t.leaveHeld k l
          | none => t) → s.OnlyClaims v ∧ v.roomForLoading d = true := by
        rintro _ rfl
        split
        · exact ⟨h.leaveHeld _ _, hr⟩
        · exact ⟨h, hr⟩
      have claimed := ((left _ rfl).1.releaseClaim l).takeClaim (l := l)
        (State.roomForLoading_releaseClaim l (left _ rfl).2)
      split
      · exact claimed.modPallet _ _
      · split
        · exact claimed.modPallet _ _
        · exact (claimed.modPallet _ _).makeMove _ _ _ _ _

theorem carryOverAll (h : s.OnlyClaims t) (k : Option Nat) (d : Nat) :
    s.OnlyClaims (t.carryOverAll k d) := by
  unfold State.carryOverAll
  split
  · exact h
  · split
    · exact h
    · rename_i k _ r hr
      clear hr
      generalize r.held = ls
      induction ls generalizing t with
      | nil => exact h
      | cons l ls ih =>
        refine ih ?_
        show s.OnlyClaims (t.carryOver k d l)
        unfold State.carryOver
        split
        · split
          · exact (h.leaveHeld _ _).modPallet _ _
          · exact h
        · exact h

/-- Grants whose tests leave room below the lane slots. -/
theorem grantEach {d : Nat} {a : Option Nat} {xs : List (Label × PassTest)}
    (hx : ∀ x ∈ xs, ∀ v : State, x.2 v d = true → v.roomForLoading d = true) {r : PassResult}
    (h : s.OnlyClaims r.state) : s.OnlyClaims (Machine.grantEach d a xs r).1.state := by
  induction xs generalizing r with
  | nil => exact h
  | cons x xs ih =>
    rw [Machine.grantEach]
    split
    · exact ih (fun y hy => hx y (List.mem_cons_of_mem x hy))
        (h.grantClaim (hx x List.mem_cons_self _ ‹_›))
    · exact h

end State.OnlyClaims

/-- A label's test in a pass leaves room below the lane slots. -/
theorem State.room_of_passOffers {start : State} {serving next : Option Nat} {drop : Drop} {d : Nat}
    {x : Label × PassTest} (hx : x ∈ start.passOffers serving next drop) (v : State)
    (h : x.2 v d = true) : v.roomForLoading d = true := by
  unfold State.passOffers at hx
  rcases List.mem_append.1 hx with hx | hx <;> obtain ⟨l, -, rfl⟩ := List.mem_map.1 hx
  · exact h
  · exact State.room_of_aboveReserve h

/-- A pass keeps claims within the slots and changes doors and trunks in nothing but claims and held
lists (R84, R86). -/
theorem State.grantPass_onlyClaims {s : State} (h : ∀ e, (s.door e).claims ≤ (s.door e).slots)
    (d : Nat) : s.OnlyClaims (s.grantPass d).state := by
  have begin : s.OnlyClaims s := ⟨h, fun _ => rfl, fun _ => rfl⟩
  rw [State.grantPass_eq_grantEach]
  exact .grantEach (fun _ hx => State.room_of_passOffers hx)
    ((begin.carryOverAll _ _).carryOverAll _ _)

/-! ## One grant (R87) -/

section
variable {l : Label} {d k : Nat} {p : Pallet}

theorem State.grantClaim_staged (hp : s.pallet? l = some p) (hs : p.state = .staged) :
    s.grantClaim l d = (s.takeClaim l d, true, none) := by
  simp only [State.grantClaim, hp, hs, if_true]

/-- A grant to a HELD pallet: it leaves the held list, gives up a claim it has, and takes one at `d`;
the rest is by its move and its location. -/
theorem State.grantClaim_held (hp : s.pallet? l = some p) (hs : p.state = .held)
    (hk : p.trunk = some k) :
    s.grantClaim l d =
      let claimed := ((s.leaveHeld k l).releaseClaim l).takeClaim l d
      if p.move.any (·.state = .accepted) then
        (claimed.modPallet l fun p => { p with state := .laneBound }, false, p.claimDoor)
      else if p.location = .lane d then
        (claimed.modPallet l fun p => { p with state := .staged }, true, p.claimDoor)
      else
        let kind : MoveKind := match p.location with
          | .lane _ => .shift
          | _ => .put
        ((claimed.modPallet l fun p => { p with state := .laneBound }).makeMove l kind p.location
          (.lane d) d, false, p.claimDoor) := by
  simp only [State.grantClaim, hp, hs, hk, reduceCtorEq, if_false] <;> rfl

/-- The release of the claim that a pallet's record names (R89). -/
theorem State.releaseClaim_eq (hp : s.pallet? l = some p) : s.releaseClaim l =
    match p.claimDoor with
    | none => s
    | some e => (s.modDoor e fun x => { x with claims := x.claims - 1 }).modPallet l fun p =>
        { p with claimDoor := none, flags := { p.flags with mislaned := false } } := by
  simp only [State.releaseClaim, State.claimOf, hp, Option.bind_some] <;> rfl

end

/-! ## The statement -/

/-- The pass's one order of grants, as O58 spells it. -/
theorem grantPass_grantsInOrder (s : State) (d : Nat) :
    let x := s.door d
    let pass := s.grantPass d
    let start := (s.carryOverAll x.active d).carryOverAll x.next d
    let serving := s.passTrunk d
    let drop := ((serving.bind s.trunk?).map Trunk.loadingDrop).getD .a
    let first := start.waiting serving (· = drop)
    let all := first ++ (start.waiting serving (· ≠ drop) ++ start.waiting x.next fun _ => true)
    let after (k : Nat) : State := start.afterGrants d (all.take k)
    let room (k : Nat) : Prop := let y := (after k).door d
      if k < first.length then y.claims < y.slots else y.reserve < y.slots - y.claims
    ∃ n, n ≤ all.length ∧ pass.state = after n ∧ (∀ k < n, room k) ∧ (n < all.length → ¬room n) ∧
      pass.doors = (List.range n).flatMap (fun k => match all[k]? with
        | some l => ((after k).grantClaim l d).2.2.toList
        | none => []) ∧
      (pass.staged = true ↔ s.hasCarryOver x.active d = true ∨ ∃ k l, k < n ∧ all[k]? = some l ∧
        ((after k).grantClaim l d).2.1 = true ∧ x.active.isSome ∧
          ((after (k + 1)).pallet? l).bind Pallet.trunk = x.active) := by
  intro x pass start serving drop first all after room
  let offers := start.passOffers serving x.next drop
  have hfst : offers.map Prod.fst = all := by
    simp [offers, State.passOffers, all, first, Function.comp_def]
  have hlen : offers.length = all.length := by rw [← hfst, List.length_map]
  obtain ⟨n, hn, hstate, hroom, hstop, hdoors, hstaged⟩ := grantEach_run d x.active offers
    { state := start, staged := s.hasCarryOver x.active d }
  rw [← State.grantPass_eq_grantEach] at hstate hdoors hstaged
  rw [hfst] at hstate hroom hstop hdoors hstaged
  -- the test of offer `k` is `room k`
  have htest (k : Nat) (y : Label × PassTest) (hy : offers[k]? = some y) (v : State) :
      y.2 v d = true ↔ if k < first.length then (v.door d).claims < (v.door d).slots
        else (v.door d).reserve < (v.door d).slots - (v.door d).claims := by
    simp only [offers, State.passOffers, List.getElem?_append, List.length_map, List.getElem?_map]
      at hy
    change (if k < first.length then _ else _) = _ at hy
    split at hy <;> obtain ⟨l, -, rfl⟩ := Option.map_eq_some_iff.1 hy
    · rw [if_pos ‹_›]; exact decide_eq_true_iff
    · rw [if_neg ‹_›]; exact decide_eq_true_iff
  refine ⟨n, by omega, hstate, fun k hk => ?_, fun hlt => ?_, hdoors, hstaged⟩
  · have hy := List.getElem?_eq_getElem (l := offers) (i := k) (by omega)
    exact (htest k _ hy _).1 (hroom k _ hk hy)
  · have hy := List.getElem?_eq_getElem (l := offers) (i := n) (by omega)
    exact fun hr => Bool.eq_false_iff.1 (hstop _ hy) ((htest n _ hy _).2 hr)

/-- Settles O58: the agreement is an invariant of every step (`State.DoorsAgree.step`); a pass is
`grantPass_grantsInOrder`, what it cannot change `State.grantPass_onlyClaims`, and a grant is by the
pallet's state, move and location. -/
theorem grantPassKeepsClaimsWithinTheSlots : Obligations.GrantPassKeepsClaimsWithinTheSlots := by
  refine ⟨fun s t => State.DoorsAgree.step, (State.Agreed.of_reset rfl rfl).2, fun s d h => ?kept,
    fun s d => ?order, fun s t d r hr => ?carried, fun s l d t p hp => ?grant⟩
  case kept =>
    have h' := State.grantPass_onlyClaims h d
    exact ⟨h'.within, h'.doors, h'.trunks⟩
  case order =>
    intro x pass start serving loading waits first all after room carries
    have hcarries : s.hasCarryOver x.active d = true ↔ carries := s.hasCarryOver_iff x.active d
    obtain ⟨n, hn, hstate, hroom, hstop, hdoors, hstaged⟩ := grantPass_grantsInOrder s d
    exact ⟨n, hn, hstate, hroom, hstop, hdoors, hstaged.trans (or_congr_left hcarries)⟩
  case carried =>
    simp only [State.carryOverAll, hr]
    congr 1
    funext v l
    exact v.carryOver_eq t d l
  case grant =>
    intro claim
    refine ⟨State.grantClaim_staged hp, fun hs hk => ?_⟩
    intro left freed stands
    have hfreed : (s.leaveHeld t l).releaseClaim l = freed := State.releaseClaim_eq hp
    have hgrant := State.grantClaim_held (d := d) hp hs hk
    rw [hfreed] at hgrant
    refine ⟨fun hm => ?_, fun hm => ⟨fun hl => ?_, fun n hl => ?_, fun e he hl => ?_⟩⟩
    · rw [hgrant]; simp only [hm, if_true]; rfl
    · rw [hgrant]; simp only [hm, hl, if_true, Bool.false_eq_true, if_false]; rfl
    · rw [hgrant]; simp only [hm, hl, reduceCtorEq, Bool.false_eq_true, if_false]; rfl
    · rw [hgrant]; simp only [hm, hl, Location.lane.injEq, he, Bool.false_eq_true, if_false]; rfl

end Sys2Proof.Machine

/-! What sending a frame and changing a raw value leave: each writes a port's transmit side, and a raw value the conditions too. -/

namespace Sys2Proof.Machine

variable (s : State)

/-! ## The fields written -/

theorem State.setPort_eq (p : Port) (x : PortState) :
    ∃ f y, s.setPort p x = { s with floor := f, yard := y } := by
  cases p
  · exact ⟨x, s.yard, rfl⟩
  · exact ⟨s.floor, x, rfl⟩

theorem State.placeOwn_eq (p : Port) (d : Address) (b : OwnBody) :
    ∃ f y, s.placeOwn p d b = { s with floor := f, yard := y } := by
  rcases s.placeOwn_cases p d b with ⟨-, e⟩ | ⟨-, e⟩ <;> rw [e]
  · exact ⟨s.floor, s.yard, rfl⟩
  · exact s.setPort_eq p _

theorem State.sendDirective_eq (m : Nat) (d : Directive) :
    ∃ f y, s.sendDirective m d = { s with floor := f, yard := y } := by
  unfold State.sendDirective
  split
  · exact s.placeOwn_eq ..
  · exact ⟨s.floor, s.yard, rfl⟩

theorem State.noticeTo_eq (e : Bool) (a : Option Address) (n : Notice) :
    ∃ f y, s.noticeTo e a n = { s with floor := f, yard := y } := by
  unfold State.noticeTo
  split
  · exact s.placeOwn_eq ..
  · exact ⟨s.floor, s.yard, rfl⟩

theorem State.changeRaw_eq (c : CondName) (v : Bool) (x : Option Subject) :
    ∃ f y k, s.changeRaw c v x = { s with floor := f, yard := y, conditions := k } := by
  unfold State.changeRaw State.sendNotices
  dsimp only
  split
  · obtain ⟨f, y, h⟩ := State.noticeTo_eq (s.modCondition c fun r =>
      { r with raw := v, status := true, subject := x }) _ _ _
    rw [h]
    obtain ⟨f', y', h'⟩ := State.noticeTo_eq _ _ _ _
    exact ⟨f', y', _, h'⟩
  · exact ⟨s.floor, s.yard, _, rfl⟩

theorem State.raise_eq (c : CondName) (x : Subject) :
    ∃ f y k, s.raise c x = { s with floor := f, yard := y, conditions := k } := by
  unfold State.raise
  split
  · exact ⟨s.floor, s.yard, s.conditions, rfl⟩
  · exact s.changeRaw_eq ..

theorem State.report_eq (c : CondName) (x : Option Subject) :
    ∃ f y k, s.report c x = { s with floor := f, yard := y, conditions := k } := by
  unfold State.report
  split
  · exact ⟨s.floor, s.yard, s.conditions, rfl⟩
  · exact s.changeRaw_eq ..

/-! ## The reads they leave -/

section
variable (p : Port) (a : Address) (b : OwnBody)

@[simp] theorem State.pallet?_placeOwn (l : Label) : (s.placeOwn p a b).pallet? l = s.pallet? l := by
  obtain ⟨_, _, h⟩ := s.placeOwn_eq p a b; rw [h]; rfl
@[simp] theorem State.trunk?_placeOwn (t : Nat) : (s.placeOwn p a b).trunk? t = s.trunk? t := by
  obtain ⟨_, _, h⟩ := s.placeOwn_eq p a b; rw [h]; rfl
@[simp] theorem State.door_placeOwn (d : Nat) : (s.placeOwn p a b).door d = s.door d := by
  obtain ⟨_, _, h⟩ := s.placeOwn_eq p a b; rw [h]; rfl
@[simp] theorem State.mover_placeOwn (m : Nat) : (s.placeOwn p a b).mover m = s.mover m := by
  obtain ⟨_, _, h⟩ := s.placeOwn_eq p a b; rw [h]; rfl
@[simp] theorem State.queue_placeOwn (q : Nat) : (s.placeOwn p a b).queue q = s.queue q := by
  obtain ⟨_, _, h⟩ := s.placeOwn_eq p a b; rw [h]; rfl
@[simp] theorem State.condition_placeOwn (c : CondName) :
    (s.placeOwn p a b).condition c = s.condition c := by
  obtain ⟨_, _, h⟩ := s.placeOwn_eq p a b; rw [h]; rfl

end

section
variable (m : Nat) (d : Directive)

@[simp] theorem State.sendDirective_freeList : (s.sendDirective m d).freeList = s.freeList := by
  obtain ⟨_, _, h⟩ := s.sendDirective_eq m d; rw [h]
@[simp] theorem State.sendDirective_queues : (s.sendDirective m d).queues = s.queues := by
  obtain ⟨_, _, h⟩ := s.sendDirective_eq m d; rw [h]
@[simp] theorem State.sendDirective_pallets : (s.sendDirective m d).pallets = s.pallets := by
  obtain ⟨_, _, h⟩ := s.sendDirective_eq m d; rw [h]
@[simp] theorem State.sendDirective_movers : (s.sendDirective m d).movers = s.movers := by
  obtain ⟨_, _, h⟩ := s.sendDirective_eq m d; rw [h]

end

section
variable (c : CondName) (x : Subject)

@[simp] theorem State.raise_pallets : (s.raise c x).pallets = s.pallets := by
  obtain ⟨_, _, _, h⟩ := s.raise_eq c x; rw [h]
@[simp] theorem State.raise_trunks : (s.raise c x).trunks = s.trunks := by
  obtain ⟨_, _, _, h⟩ := s.raise_eq c x; rw [h]
@[simp] theorem State.raise_doors : (s.raise c x).doors = s.doors := by
  obtain ⟨_, _, _, h⟩ := s.raise_eq c x; rw [h]
@[simp] theorem State.raise_movers : (s.raise c x).movers = s.movers := by
  obtain ⟨_, _, _, h⟩ := s.raise_eq c x; rw [h]
@[simp] theorem State.raise_freeList : (s.raise c x).freeList = s.freeList := by
  obtain ⟨_, _, _, h⟩ := s.raise_eq c x; rw [h]
@[simp] theorem State.raise_queues : (s.raise c x).queues = s.queues := by
  obtain ⟨_, _, _, h⟩ := s.raise_eq c x; rw [h]
@[simp] theorem State.raise_clock : (s.raise c x).clock = s.clock := by
  obtain ⟨_, _, _, h⟩ := s.raise_eq c x; rw [h]
@[simp] theorem State.raise_limits : (s.raise c x).limits = s.limits := by
  obtain ⟨_, _, _, h⟩ := s.raise_eq c x; rw [h]
@[simp] theorem State.raise_classes : (s.raise c x).classes = s.classes := by
  obtain ⟨_, _, _, h⟩ := s.raise_eq c x; rw [h]

@[simp] theorem State.pallet?_raise (l : Label) : (s.raise c x).pallet? l = s.pallet? l := by
  simp [State.pallet?]
@[simp] theorem State.trunk?_raise (t : Nat) : (s.raise c x).trunk? t = s.trunk? t := by
  simp [State.trunk?]
@[simp] theorem State.door_raise (d : Nat) : (s.raise c x).door d = s.door d := by
  simp [State.door]
@[simp] theorem State.mover_raise (m : Nat) : (s.raise c x).mover m = s.mover m := by
  simp [State.mover]
@[simp] theorem State.queue_raise (q : Nat) : (s.raise c x).queue q = s.queue q := by
  simp [State.queue]

end

section
variable (c : CondName) (x : Option Subject)

@[simp] theorem State.report_pallets : (s.report c x).pallets = s.pallets := by
  obtain ⟨_, _, _, h⟩ := s.report_eq c x; rw [h]
@[simp] theorem State.report_trunks : (s.report c x).trunks = s.trunks := by
  obtain ⟨_, _, _, h⟩ := s.report_eq c x; rw [h]
@[simp] theorem State.report_doors : (s.report c x).doors = s.doors := by
  obtain ⟨_, _, _, h⟩ := s.report_eq c x; rw [h]
@[simp] theorem State.report_movers : (s.report c x).movers = s.movers := by
  obtain ⟨_, _, _, h⟩ := s.report_eq c x; rw [h]
@[simp] theorem State.report_freeList : (s.report c x).freeList = s.freeList := by
  obtain ⟨_, _, _, h⟩ := s.report_eq c x; rw [h]
@[simp] theorem State.report_queues : (s.report c x).queues = s.queues := by
  obtain ⟨_, _, _, h⟩ := s.report_eq c x; rw [h]
@[simp] theorem State.report_clock : (s.report c x).clock = s.clock := by
  obtain ⟨_, _, _, h⟩ := s.report_eq c x; rw [h]
@[simp] theorem State.report_limits : (s.report c x).limits = s.limits := by
  obtain ⟨_, _, _, h⟩ := s.report_eq c x; rw [h]

@[simp] theorem State.pallet?_report (l : Label) : (s.report c x).pallet? l = s.pallet? l := by
  simp [State.pallet?]
@[simp] theorem State.trunk?_report (t : Nat) : (s.report c x).trunk? t = s.trunk? t := by
  simp [State.trunk?]
@[simp] theorem State.door_report (d : Nat) : (s.report c x).door d = s.door d := by
  simp [State.door]
@[simp] theorem State.queue_report (q : Nat) : (s.report c x).queue q = s.queue q := by
  simp [State.queue]

end

/-! ## Results -/

theorem State.giveResult_eq (due : Bool) (r : Result) (x : Option Record) :
    ∃ f y fs n a, s.giveResult due r x =
      { s with floor := f, yard := y, frames := fs, turn := n, answer := a } := by
  unfold State.giveResult
  dsimp only
  split
  · split
    · obtain ⟨f, y, h⟩ := State.placeOwn_eq _ _ _ _
      exact ⟨f, y, _, _, _, h⟩
    · exact ⟨s.floor, s.yard, _, _, _, rfl⟩
  · exact ⟨s.floor, s.yard, s.frames, s.turn, _, rfl⟩

end Sys2Proof.Machine

/-! The grant attempt (R116, R117): the choice of queue, one grant, and that an attempt ends with no free mover or no waiting move. -/

namespace Sys2Proof.Machine

variable {s t : State}

/-! ## The rotation lists -/

namespace State.rotationWhole

theorem reset : State.reset.rotationWhole := ⟨.refl _, .refl _⟩

theorem same (h : s.rotationWhole) (hu : t.urgent = s.urgent) (hn : t.normal = s.normal) :
    t.rotationWhole := ⟨hu ▸ h.1, hn ▸ h.2⟩

theorem lt_of_mem (h : s.rotationWhole) {q : Nat} (hq : q ∈ s.urgent ∨ q ∈ s.normal) : q < 49 :=
  hq.elim (fun hq => List.mem_range.1 (h.1.mem_iff.1 hq)) fun hq =>
    List.mem_range.1 (h.2.mem_iff.1 hq)

theorem countBurst (h : s.rotationWhole) {q : Nat} (hq : q ∈ s.urgent ∨ q ∈ s.normal) :
    (s.countBurst q).rotationWhole := by
  have hlt := h.lt_of_mem hq
  unfold State.countBurst
  dsimp only
  split
  · exact ⟨State.Safe.toTail_perm h.1 hlt, State.Safe.toTail_perm h.2 hlt⟩
  · exact h

/-- Every write of the model keeps the rotation lists whole. -/
theorem written : Written State.rotationWhole where
  modPallet _ _ h := h
  dropPallet _ h := h
  modTrunk _ _ _ h := h
  removeTrunk t h := by unfold State.removeTrunk; split <;> exact h
  counter h := h
  claimUp _ _ h := h
  claimDown _ h := h
  hold _ _ h := h
  handOver t d _ h := by
    unfold State.handOver
    dsimp only
    split <;> exact h
  unplaceNext _ _ _ h := h
  movers _ h := h
  freeList _ h := h
  queues _ h := h
  lastMove _ _ h := h
  countBurst _ hq h := h.countBurst hq
  modCondition _ _ _ h := h
  placeOwn {s} p d b h := by obtain ⟨_, _, e⟩ := s.placeOwn_eq p d b; rw [e]; exact h
  giveResult {s} due r x h := by
    obtain ⟨_, _, _, _, _, e⟩ := s.giveResult_eq due r x; rw [e]; exact h
  addPallet _ _ h := h
  enterRepeat _ _ _ h := h
  clock _ _ h := h
  settings _ _ _ _ _ _ _ _ _ _ _ h := h
  placePass _ _ h := h.same (State.placePass_urgent ..) (State.placePass_normal ..)
  endTransmission _ h := h.same (State.setPort_urgent ..) (State.setPort_normal ..)
  beginReply _ h := h
  dropDueFrame h := h
  joinFrame _ _ _ h := h
  pinReset _ _ _ := reset
  executeRestart k _ _ _ := by cases k <;> exact reset
  setStandby _ _ h := h.same (State.setStandby_urgent ..) (State.setStandby_normal ..)
  putClass _ _ _ h := h
  addTrunk _ _ _ _ _ h := h
  doorSettings _ _ _ _ _ _ h := h
  placeActive _ _ _ _ h := h
  placeNext _ _ _ _ _ h := h
  replaceNext _ _ _ _ _ _ _ h := h

end State.rotationWhole

/-! ## The choice of queue (R117) -/

theorem State.hasMove_iff (s : State) (q : Nat) : s.hasMove q = true ↔ s.queue q ≠ [] := by
  simp [State.hasMove]

theorem State.urgentQueue_iff (s : State) (q : Nat) :
    s.urgentQueue q = true ↔ q ≠ 0 ∧ s.urgentDoor q = true := by
  simp [State.urgentQueue]

/-- `find?` answers the first element that a test lets through. -/
theorem find?_eq_some_iff_first {α : Type} (p : α → Bool) (P : α → Prop) (hp : ∀ x, p x = true ↔ P x)
    (xs : List α) (x : α) :
    xs.find? p = some x ↔ ∃ pre post, xs = pre ++ x :: post ∧ P x ∧ ∀ y ∈ pre, ¬P y := by
  rw [List.find?_eq_some_iff_append]
  simp only [← hp, Bool.not_eq_true, Bool.not_eq_eq_eq_not, Bool.not_true]
  tauto

theorem find?_eq_none_iff_all {α : Type} (p : α → Bool) (P : α → Prop) (hp : ∀ x, p x = true ↔ P x)
    (xs : List α) : xs.find? p = none ↔ ∀ y ∈ xs, ¬P y := by
  simp only [List.find?_eq_none, hp]

/-- The chosen queue: the first in URGENT that holds a move at an urgent door, else the first in NORMAL
that holds one and is not urgent. -/
theorem State.chooseQueue_iff (s : State) (q : Nat) :
    let urgent (k : Nat) : Prop := s.queue k ≠ [] ∧ k ≠ 0 ∧ s.urgentDoor k = true
    let normal (k : Nat) : Prop := s.queue k ≠ [] ∧ ¬(k ≠ 0 ∧ s.urgentDoor k = true)
    let firstOf (ks : List Nat) (eligible : Nat → Prop) : Prop :=
      ∃ pre post, ks = pre ++ q :: post ∧ eligible q ∧ ∀ k ∈ pre, ¬eligible k
    s.chooseQueue = some q ↔
      firstOf s.urgent urgent ∨ ((∀ k ∈ s.urgent, ¬urgent k) ∧ firstOf s.normal normal) := by
  intro urgent normal firstOf
  have hu (k) : (s.hasMove k && s.urgentQueue k) = true ↔ urgent k := by
    rw [Bool.and_eq_true, s.hasMove_iff, s.urgentQueue_iff]
  have hn (k) : (s.hasMove k && !s.urgentQueue k) = true ↔ normal k := by
    rw [Bool.and_eq_true, s.hasMove_iff, Bool.not_eq_true', ← Bool.not_eq_true, s.urgentQueue_iff]
  unfold State.chooseQueue
  rw [Option.or_eq_some_iff, find?_eq_some_iff_first _ urgent hu, find?_eq_none_iff_all _ urgent hu,
    find?_eq_some_iff_first _ normal hn]

theorem State.queue_ne_nil_of_chooseQueue {q : Nat} (h : s.chooseQueue = some q) :
    s.queue q ≠ [] := by
  rcases (s.chooseQueue_iff q).1 h with ⟨_, _, -, h, -⟩ | ⟨-, _, _, -, h, -⟩ <;> exact h.1

/-- With whole rotation lists, no queue is chosen only when no queue holds a move. -/
theorem State.queue_eq_nil_of_chooseQueue (hr : s.rotationWhole) (h : s.chooseQueue = none) (q : Nat)
    (hq : q < 49) : s.queue q = [] := by
  by_contra hne
  have hm := (s.hasMove_iff q).2 hne
  unfold State.chooseQueue at h
  rw [Option.or_eq_none_iff, List.find?_eq_none, List.find?_eq_none] at h
  have hu := h.1 q (hr.1.mem_iff.2 (List.mem_range.2 hq))
  have hn := h.2 q (hr.2.mem_iff.2 (List.mem_range.2 hq))
  cases hd : s.urgentQueue q <;> simp [hm, hd] at hu hn

/-! ## The free list under a grant -/

@[simp] theorem State.countBurst_freeList (q : Nat) : (s.countBurst q).freeList = s.freeList := by
  unfold State.countBurst; dsimp only; split <;> rfl

@[simp] theorem State.sendOffer_freeList (l : Label) (m : Nat) :
    (s.sendOffer l m).freeList = s.freeList := by
  unfold State.sendOffer
  split
  · split <;> simp
  · rfl

@[simp] theorem State.returnMove_freeList (l : Label) : (s.returnMove l).freeList = s.freeList := by
  unfold State.returnMove; split <;> rfl

@[simp] theorem State.giveBack_freeList (m : Nat) : (s.giveBack m).freeList = s.freeList := by
  unfold State.giveBack; split <;> simp

@[simp] theorem State.idleMover_freeList (m : Nat) (x : MoverState) :
    (s.idleMover m x).freeList = s.freeList.filter (· ≠ m) := rfl

@[simp] theorem State.expireOffer_freeList (m : Nat) :
    (s.expireOffer m).freeList = s.freeList.filter (· ≠ m) := by
  simp [State.expireOffer]

/-- A grant takes its mover out of the free list and no other. -/
theorem State.grant_freeList (s : State) (m q : Nat) (l : Label) :
    (s.grant m q l).freeList = s.freeList.filter (· ≠ m) := by
  unfold State.grant
  dsimp only
  split <;> simp [List.filter_filter]

/-! ## Attempts -/

/-- An attempt with no free mover, or with no queue to choose, changes nothing. -/
theorem State.grants_of_none (h : s.freeList = [] ∨ s.chooseQueue = none) (n : Nat) :
    s.grants n = s := by
  cases n with
  | zero => rfl
  | succ n =>
    unfold State.grants
    rcases h with h | h
    · rw [h]
    · rw [h]; split <;> simp_all

/-- One grant of an attempt. -/
theorem State.grants_succ {m q : Nat} {ms : List Nat} {l : Label} {ls : List Label}
    (hf : s.freeList = m :: ms) (hc : s.chooseQueue = some q) (hq : s.queue q = l :: ls) (n : Nat) :
    s.grants (n + 1) = (s.grant m q l).grants n := by
  rw [State.grants]
  simp only [hf, hc, hq]

/-- As many grants as the free list is long leave no free mover beside a waiting move. -/
theorem State.grants_nothingToGrant (hr : s.rotationWhole) (n : Nat) (hn : s.freeList.length ≤ n) :
    (s.grants n).NothingToGrant := by
  induction n generalizing s with
  | zero => exact .inl (List.length_eq_zero_iff.1 (Nat.le_zero.1 hn))
  | succ n ih =>
    cases hf : s.freeList with
    | nil => rw [State.grants_of_none (.inl hf)]; exact .inl hf
    | cons m ms =>
      cases hc : s.chooseQueue with
      | none =>
        rw [State.grants_of_none (.inr hc)]
        exact .inr (State.queue_eq_nil_of_chooseQueue hr hc)
      | some q =>
        obtain ⟨l, ls, hq⟩ := List.exists_cons_of_ne_nil (State.queue_ne_nil_of_chooseQueue hc)
        rw [State.grants_succ hf hc hq]
        refine ih (State.rotationWhole.written.grant m q l (Kept.mem_of_chooseQueue hc) hr) ?_
        rw [State.grant_freeList, hf, List.filter_cons_of_neg (by simp)]
        rw [hf, List.length_cons] at hn
        exact (List.length_filter_le _ _).trans (by omega)

theorem State.grantAttempt_nothingToGrant (hr : s.rotationWhole) :
    s.grantAttempt.NothingToGrant := State.grants_nothingToGrant hr _ (Nat.le_refl _)

theorem filter_ne_of_notMem {α : Type} [DecidableEq α] {x : α} {xs : List α} (h : x ∉ xs) :
    (x :: xs).filter (· ≠ x) = xs := by
  rw [List.filter_cons_of_neg (by simp)]
  exact List.filter_eq_self.2 fun y hy => by simpa using ne_of_mem_of_not_mem hy h

/-- An attempt grants once and goes on. -/
theorem State.grantAttempt_eq {m q : Nat} {ms : List Nat} {l : Label} {ls : List Label}
    (hf : s.freeList = m :: ms) (hm : m ∉ ms) (hc : s.chooseQueue = some q)
    (hq : s.queue q = l :: ls) : s.grantAttempt = (s.grant m q l).grantAttempt := by
  have hlen : (s.grant m q l).freeList = ms := by
    rw [State.grant_freeList, hf, filter_ne_of_notMem hm]
  unfold State.grantAttempt
  rw [hlen, hf, List.length_cons, State.grants_succ hf hc hq]

/-! ## One grant -/

/-- Two changes of a record that agree on it. -/
theorem Table.adjust_congr {α : Type} {tb : Table α} {k : Nat} {f g : α → α} {v : α}
    (hv : tb.get? k = some v) (h : f v = g v) : tb.adjust k f = tb.adjust k g := by
  induction tb with
  | nil => rfl
  | cons e tb ih =>
    rw [Table.get?_cons] at hv
    unfold Table.adjust
    split at hv
    · rw [if_pos ‹_›, if_pos ‹_›, Option.some.inj hv, h]
    · rw [if_neg ‹_›, if_neg ‹_›, ih hv]

theorem State.modPallet_congr {l : Label} {f g : Pallet → Pallet} {p : Pallet}
    (hp : s.pallet? l = some p) (h : f p = g p) : s.modPallet l f = s.modPallet l g := by
  unfold State.modPallet
  rw [Table.adjust_congr hp h]

/-- The state after a grant from queue `q` is counted and mover and move have left their lists
(R116, R117). -/
def State.afterCount (s : State) (q : Nat) (ms : List Nat) (ls : List Label) : State :=
  let n := s.burst q + 1
  let turns : Prop := (if q = 0 then 1 else 2 ^ (s.door q).burst) ≤ n
  let last (ks : List Nat) : List Nat := if turns then ks.filter (· ≠ q) ++ [q] else ks
  { s with
    freeList := ms, urgent := last s.urgent, normal := last s.normal
    bursts := s.bursts.setIfInBounds q (if turns then 0 else n)
    queues := s.queues.setIfInBounds q ls }

/-- The move of a label and mover `m` become OFFERED to each other, with the accept deadline (R116). -/
def State.offer (s : State) (m : Nat) (l : Label) : State :=
  (s.modPallet l fun p => { p with move := p.move.map fun mv =>
    { mv with
      state := .offered
      mover := some m
      acceptDeadline := some (s.deadlineIn s.limits.acceptTimeout) } }).modMover m fun r =>
        { r with state := .offered, move := some (((s.move? l).map Move.number).getD 0) }

/-- A deadline that is reached as it is armed is taken (R114). -/
def State.expireIfReached (s : State) (m : Nat) : State :=
  if s.atLastSecond then s.expireOffer m else s

theorem State.countBurst_eq {m q : Nat} {ms : List Nat} {l : Label} {ls : List Label}
    (hf : s.freeList = m :: ms) (hm : m ∉ ms) (hq : s.queue q = l :: ls) (hl : l ∉ ls) :
    State.setQueue { s.countBurst q with freeList := s.freeList.filter (· ≠ m) } q
      (((s.countBurst q).queue q).filter (· ≠ l)) = s.afterCount q ms ls := by
  have hqueue : (s.countBurst q).queue q = l :: ls := by
    rw [← hq]; unfold State.countBurst; dsimp only; split <;> rfl
  rw [hf, filter_ne_of_notMem hm, hqueue, filter_ne_of_notMem hl]
  unfold State.countBurst State.afterCount State.burstLength State.setQueue toTail
  by_cases ht : (if q = 0 then 1 else 2 ^ (s.door q).burst) ≤ s.burst q + 1
  · simp only [ht, if_true]
  · simp only [ht, if_false]

theorem State.grant_eq {m q : Nat} {ms : List Nat} {l : Label} {ls : List Label}
    (hf : s.freeList = m :: ms) (hm : m ∉ ms) (hq : s.queue q = l :: ls) (hl : l ∉ ls) :
    s.grant m q l =
      (((s.afterCount q ms ls).offer m l).sendOffer l m).expireIfReached m := by
  rw [← State.countBurst_eq hf hm hq hl]
  rfl

theorem State.offer_eq {m : Nat} {l : Label} {p : Pallet} {mv : Move} (hp : s.pallet? l = some p)
    (hmv : p.move = some mv) : s.offer m l =
      (s.modPallet l fun _ => { p with move := some { mv with
        state := .offered, mover := some m
        acceptDeadline := some (min (s.clock.value + s.limits.acceptTimeout) 86399) } }).modMover m
          fun x => { x with state := .offered, move := some mv.number } := by
  unfold State.offer
  rw [State.modPallet_congr (g := fun _ => { p with move := some { mv with
    state := .offered, mover := some m
    acceptDeadline := some (min (s.clock.value + s.limits.acceptTimeout) 86399) } }) hp
    (by simp [hmv, State.deadlineIn])]
  simp [State.move?, hp, hmv]

/-- A mover after a change of mover `m`, whatever the number: its own record, or mover `m`'s changed
one. -/
theorem State.mover_modMover_cases (s : State) (m n : Nat) (f : Mover → Mover) :
    (s.modMover m f).mover n = s.mover n ∨ (n = m ∧ (s.modMover m f).mover n = f (s.mover m)) := by
  by_cases h : 1 ≤ m ∧ m ≤ 32
  · rw [s.mover_modMover m n f h.1 h.2]
    split
    · exact .inr ⟨‹_›, rfl⟩
    · exact .inl rfl
  · have : setNth s.movers m (f (s.mover m)) = s.movers := by
      unfold setNth
      split
      · rfl
      · rw [Vector.setIfInBounds_eq_of_size_le]; omega
    exact .inl (by unfold State.mover State.modMover; dsimp only; rw [this])

/-- The OFFER of an offered move, sent to the mover's address (R107). -/
theorem State.sendOffer_offer {m : Nat} {l : Label} {p : Pallet} {mv : Move}
    (hp : s.pallet? l = some p) (hpl : p.label = l) (hmv : p.move = some mv) :
    (s.offer m l).sendOffer l m = match (s.mover m).address with
      | none => s.offer m l
      | some a => (s.offer m l).placeOwn .floor a (.directive (.offer m mv.number mv.kind l
          mv.source mv.destination (if mv.kind = .load then p.trunk else none)
          (if mv.kind = .load then p.position else none))) := by
  have hp' : (s.offer m l).pallet? l = some { p with move := some { mv with
      state := .offered, mover := some m
      acceptDeadline := some (min (s.clock.value + s.limits.acceptTimeout) 86399) } } := by
    rw [State.offer_eq hp hmv]
    refine (State.pallet?_modPallet s l l _).trans ?_
    simp [hp]
  have hm : ((s.offer m l).mover m).address = (s.mover m).address := by
    unfold State.offer
    rcases State.mover_modMover_cases (s.modPallet l _) m m _ with h | ⟨-, h⟩ <;> rw [h] <;> rfl
  unfold State.sendOffer
  simp only [hp', State.sendDirective, hm]
  cases (s.mover m).address <;> simp [Pallet.offer, hpl]



end Sys2Proof.Machine

/-! Why no step leaves a free mover beside a waiting move (R116): an event either has a grant attempt ahead of it, after which nothing frees a mover or queues a move, or it does neither at all. -/

namespace Sys2Proof.Machine

variable {s t : State} {e : Ev}

/-! ## Items of work only add work before the work that is left -/

theorem ev_endWalk_work (e : Ev) (w : Walk) : ∃ ps, (e.endWalk w).work = ps ++ e.work := ⟨_, rfl⟩

theorem ev_release_work (e : Ev) (w b f p x) : (e.release w b f p x).work = e.work := by
  unfold Ev.release
  dsimp only
  repeat' split
  all_goals rfl

theorem ev_walk_work (e : Ev) (w : Walk) : ∃ ps, (e.walk w).work = ps ++ e.work := by
  unfold Ev.walk
  dsimp only
  repeat' split
  all_goals first
    | exact ev_endWalk_work e _
    | exact ⟨_, rfl⟩
    | exact ⟨_, by rw [Ev.endWalk, Ev.push, ev_release_work]⟩
    | exact ⟨_, by rw [Ev.push, ev_release_work]⟩

theorem ev_book_work (e : Ev) (p : Pallet) (c : Choice) : (e.book p c).1.work = e.work := by
  unfold Ev.book
  dsimp only
  repeat' split
  all_goals rfl

theorem ev_rebook_work (e : Ev) (l f ds) : (e.rebook l f ds).1.work = e.work := by
  unfold Ev.rebook
  dsimp only
  repeat' split
  all_goals first | rfl | exact ev_book_work ..

theorem ev_flush_work (e : Ev) (t l c) : ∃ ps, (e.flush t l c).work = ps ++ e.work := by
  unfold Ev.flush
  dsimp only
  split
  · exact ⟨[], rfl⟩
  · split
    · exact ⟨_, rfl⟩
    · exact ⟨_, by rw [Ev.push, ev_rebook_work]⟩

theorem ev_enterDue_work (e : Ev) (t) : ∃ ps, (e.enterDue t).work = ps ++ e.work := by
  unfold Ev.enterDue
  split
  · exact ⟨[], rfl⟩
  · exact ⟨_, rfl⟩

theorem ev_trunkDeadline_work (e : Ev) (t) : ∃ ps, (e.trunkDeadline t).work = ps ++ e.work := by
  unfold Ev.trunkDeadline
  split
  · exact ev_enterDue_work e t
  · split <;> exact ⟨[], rfl⟩

theorem perform_work (e : Ev) (w : Work) : ∃ ps, (e.perform w).work = ps ++ e.work := by
  cases w with
  | pass d v =>
    show ∃ ps, (e.pass d v).work = _
    unfold Ev.pass
    split
    · exact ⟨[], rfl⟩
    · exact ⟨_, rfl⟩
  | attempt t =>
    show ∃ ps, (e.attempt t).work = _
    unfold Ev.attempt
    repeat' split
    all_goals first | exact ⟨[], rfl⟩ | exact ⟨_, rfl⟩
  | walk w => exact ev_walk_work e w
  | attemptDone t =>
    show ∃ ps, (e.attemptDone t).work = _
    unfold Ev.attemptDone
    dsimp only
    split
    · exact ⟨_, rfl⟩
    · exact ⟨[], rfl⟩
  | flush t l c => exact ev_flush_work e t l c
  | redirectForks l =>
    show ∃ ps, (e.redirectForks l).work = _
    unfold Ev.redirectForks
    repeat' split
    all_goals exact ⟨[], rfl⟩
  | flushEnd t ds x c a => exact ⟨_, rfl⟩
  | flushBookings t c =>
    show ∃ ps, (e.flushBookings t c).work = _
    unfold Ev.flushBookings
    split
    · exact ⟨[], rfl⟩
    · exact ⟨_, rfl⟩
  | dueEnd t f =>
    show ∃ ps, (e.dueEnd t f).work = _
    unfold Ev.dueEnd
    split <;> exact ⟨[], rfl⟩
  | trunkReport => exact ⟨_, rfl⟩
  | moverReport => exact ⟨_, rfl⟩
  | trunkDeadlines ts =>
    cases ts with
    | nil => exact ⟨[], rfl⟩
    | cons t ts =>
      obtain ⟨ps, h⟩ := ev_trunkDeadline_work (e.push [.trunkDeadlines ts]) t
      exact ⟨ps ++ [.trunkDeadlines ts], by rw [List.append_assoc]; exact h⟩
  | leaveDoor t =>
    show ∃ ps, (e.leaveDoor t).work = _
    unfold Ev.leaveDoor
    split
    · exact ⟨_, rfl⟩
    · exact ⟨_, rfl⟩
    · exact ⟨[], rfl⟩
  | _ => exact ⟨[], rfl⟩

/-! ## Work after which no mover is free beside a move -/

/-- Items that free no mover and queue no move, nor leave any to do so without an attempt after it. -/
def Work.calm : Work → Bool
  | .dueEnd _ _ => true
  | .trunkReport => true
  | .moverReport => true
  | .lanePressure => true
  | .balanceHold => true
  | .grantAttempt => true
  | .moversShort => true
  | .verdict _ _ _ _ => true
  | .answer _ => true
  | .answerRelease _ => true
  | _ => false

/-- Items of a trunk's deadlines that flush nothing in state `s`. -/
def Work.flushesNothing (s : State) : Work → Prop
  | .trunkDeadlines ts => ∀ t ∈ ts, s.cutoffReached t = false ∨
      ∀ r, s.trunk? t = some r → ∀ b ∈ r.window, Cause.reaches .cutOff b.standing = false
  | .flushBookings t c => ∀ r, s.trunk? t = some r → ∀ b ∈ r.window, c.reaches b.standing = false
  | .dueEnd _ _ => True
  | _ => False

/-- An event after which no free mover stands beside a waiting move: a grant attempt is ahead of it and
then only calm work, or none stands so now and its work leaves it so. -/
def Ev.Settles (e : Ev) : Prop :=
  (∃ ws vs, e.work = ws ++ .grantAttempt :: vs ∧ ∀ v ∈ vs, v.calm = true) ∨
    e.s.NothingToGrant ∧
      ((∃ us vs, e.work = us ++ vs ∧ (∀ u ∈ us, u.flushesNothing e.s) ∧ ∀ v ∈ vs, v.calm = true) ∨
        ∃ ms vs, e.work = .moverDeadlines ms :: vs ∧ (∀ m ∈ ms, e.s.acceptReached m = false) ∧
          ∀ v ∈ vs, v.calm = true)

theorem State.NothingToGrant.same (h : s.NothingToGrant) (hf : t.freeList = s.freeList)
    (hq : t.queues = s.queues) : t.NothingToGrant :=
  h.imp (fun h => hf.trans h) fun h q hlt => (by unfold State.queue; rw [hq] : t.queue q = s.queue q).trans (h q hlt)

theorem State.NothingToGrant.raise (h : s.NothingToGrant) (c : CondName) (x : Subject) :
    (s.raise c x).NothingToGrant := h.same (State.raise_freeList ..) (State.raise_queues ..)

theorem State.NothingToGrant.report (h : s.NothingToGrant) (c : CondName) (x : Option Subject) :
    (s.report c x).NothingToGrant := h.same (State.report_freeList ..) (State.report_queues ..)

theorem State.NothingToGrant.placeOwn (h : s.NothingToGrant) (p : Port) (d : Address) (b : OwnBody) :
    (s.placeOwn p d b).NothingToGrant :=
  h.same (State.placeOwn_freeList ..) (State.placeOwn_queues ..)

theorem State.NothingToGrant.sendVerdict (h : s.NothingToGrant) (a : Address) (v : Verdict) :
    (s.sendVerdict a v).NothingToGrant := (h.placeOwn ..).placeOwn ..

theorem State.NothingToGrant.giveResult (h : s.NothingToGrant) (due : Bool) (r : Result)
    (x : Option Record) : (s.giveResult due r x).NothingToGrant := by
  obtain ⟨_, _, _, _, _, e⟩ := s.giveResult_eq due r x
  rw [e]; exact h

/-- Calm work alone. -/
theorem Ev.Settles.of_calm (h : e.s.NothingToGrant) (hw : ∀ v ∈ e.work, v.calm = true) : e.Settles :=
  .inr ⟨h, .inl ⟨[], e.work, rfl, by simp, hw⟩⟩

theorem Ev.Settles.of_attempt {ws vs : List Work} (hw : e.work = ws ++ .grantAttempt :: vs)
    (hv : ∀ v ∈ vs, v.calm = true) : e.Settles := .inl ⟨ws, vs, hw, hv⟩

/-- The same event state with work `ws` in front of the work left. -/
theorem Ev.settles_push_closing {w : Work} (hv : ∀ v ∈ e.work, v.calm = true) :
    (e.push (w :: closing)).Settles :=
  .of_attempt (ws := [w, .lanePressure]) (vs := .moversShort :: e.work) rfl
    (by simpa [Work.calm] using hv)

/-! ## What the deadlines leave of each other -/

@[simp] theorem State.reached_raise (s : State) (c : CondName) (x : Subject) :
    (s.raise c x).reached = s.reached := by
  funext d; simp [State.reached]
@[simp] theorem State.reached_modPallet (s : State) (l : Label) (f : Pallet → Pallet) :
    (s.modPallet l f).reached = s.reached := rfl
@[simp] theorem State.reached_modTrunk (s : State) (k : Nat) (f : Trunk → Trunk) :
    (s.modTrunk k f).reached = s.reached := rfl

/-- A change of records that keeps each move's number and accept deadline bears on no accept
deadline. -/
theorem Table.find?_adjust (tb : Table Pallet) (k : Nat) (f : Pallet → Pallet) (n : Nat)
    (hf : ∀ p, (f p).move.map (fun v => (v.number, v.acceptDeadline)) =
      p.move.map fun v => (v.number, v.acceptDeadline)) :
    ((tb.adjust k f).find? fun e => e.2.move.any fun v => v.number == n).map
        (fun e => e.2.move.map (·.acceptDeadline)) =
      (tb.find? fun e => e.2.move.any fun v => v.number == n).map
        fun e => e.2.move.map (·.acceptDeadline) := by
  have hn (p) : ((f p).move.any fun v => v.number == n) = p.move.any fun v => v.number == n := by
    have := hf p
    cases h : (f p).move <;> cases h' : p.move <;> simp_all
  have hd (p) : (f p).move.map (·.acceptDeadline) = p.move.map (·.acceptDeadline) := by
    have := hf p
    cases h : (f p).move <;> cases h' : p.move <;> simp_all
  induction tb with
  | nil => rfl
  | cons x tb ih =>
    obtain ⟨i, p⟩ := x
    rw [Table.adjust]
    split
    · rw [List.find?_cons, List.find?_cons]
      simp only [hn]
      split
      · simp [hd]
      · rfl
    · rw [List.find?_cons, List.find?_cons]
      split
      · rfl
      · exact ih

theorem State.acceptReached_eq (s : State) (m : Nat) : s.acceptReached m =
    ((s.mover m).state = .offered && ((s.mover m).move.bind fun n =>
      (s.pallets.find? fun e => e.2.move.any fun v => v.number == n).map
        fun e => e.2.move.map (·.acceptDeadline)).any fun d => d.any fun d => d.any s.reached) := by
  unfold State.acceptReached State.palletOfMove
  cases (s.mover m).move with
  | none => rfl
  | some n =>
    dsimp only [Option.bind_some]
    cases s.pallets.find? _ with
    | none => rfl
    | some x => cases h : x.2.move <;> simp [h]

theorem State.acceptReached_expireMove (s : State) (m k : Nat) :
    (s.expireMove m).acceptReached k = s.acceptReached k := by
  unfold State.expireMove
  split
  · rfl
  · rename_i p _
    rw [State.acceptReached_eq, State.acceptReached_eq]
    have hd (n) := Table.find?_adjust s.pallets p.label.toNat
      (fun p => { p with move := p.move.map fun mv => { mv with overdue := true, doneDeadline := none } })
      n (fun p => by cases p.move <;> rfl)
    simp only [State.mover_raise, State.raise_pallets, State.modPallet_pallets, hd,
      State.reached_raise, State.reached_modPallet]
    rfl

theorem State.NothingToGrant.expireMove (h : s.NothingToGrant) (m : Nat) :
    (s.expireMove m).NothingToGrant := by
  unfold State.expireMove
  split
  · exact h
  · exact State.NothingToGrant.raise (s := s.modPallet _ _) h ..

/-- The movers' deadlines with no accept deadline reached. -/
theorem State.NothingToGrant.moverDeadlines (ms : List Nat) :
    ∀ {s : State}, s.NothingToGrant → (∀ m ∈ ms, s.acceptReached m = false) →
      (ms.foldl State.moverDeadline s).NothingToGrant := by
  induction ms with
  | nil => exact fun h _ => h
  | cons m ms ih =>
    intro s h hm
    rw [List.foldl_cons]
    have hm' : s.moverDeadline m = if s.doneReached m then s.expireMove m else s := by
      rw [State.moverDeadline, hm m (by simp)]; rfl
    rw [hm']
    split
    · exact ih (h.expireMove m) fun k hk => by
        rw [State.acceptReached_expireMove]; exact hm k (by simp [hk])
    · exact ih h fun k hk => hm k (by simp [hk])

/-- Two states with the trunk records of `u` alike but for placement and phase. -/
theorem Work.flushesNothing.mono {w : Work} (h : w.flushesNothing s)
    (hw : ∀ u r, t.trunk? u = some r → ∃ r', s.trunk? u = some r' ∧ r.window = r'.window)
    (hc : ∀ u, s.cutoffReached u = false → t.cutoffReached u = false) : w.flushesNothing t := by
  have keep {u : Nat} {c : Cause}
      (h : ∀ r, s.trunk? u = some r → ∀ b ∈ r.window, c.reaches b.standing = false) (r)
      (hr : t.trunk? u = some r) : ∀ b ∈ r.window, c.reaches b.standing = false := by
    obtain ⟨r', hr', e⟩ := hw u r hr
    rw [e]; exact h r' hr'
  cases w with
  | trunkDeadlines ts => exact fun u hu => (h u hu).imp (hc u) keep
  | flushBookings u c => exact keep h
  | dueEnd => trivial
  | _ => exact h

theorem State.cutoffReached_raise (s : State) (c : CondName) (x : Subject) (u : Nat) :
    (s.raise c x).cutoffReached u = s.cutoffReached u := by
  simp [State.cutoffReached]

/-- After a change of a trunk's phase alone the windows are as before. -/
theorem State.window_modPhase (s : State) (k : Nat) (p : Phase) (u : Nat) (r : Trunk)
    (h : (s.modTrunk k fun r => { r with phase := p }).trunk? u = some r) :
    ∃ r', s.trunk? u = some r' ∧ r.window = r'.window := by
  rw [State.trunk?_modTrunk] at h
  split at h
  · obtain ⟨r', hr', rfl⟩ := Option.map_eq_some_iff.1 h
    exact ⟨r', by rw [‹u = k›]; exact hr', rfl⟩
  · exact ⟨r, h, rfl⟩

/-- A trunk that leaves OPEN, or becomes DUE, reaches no cut-off that it had not reached. -/
theorem State.cutoffReached_modPhase (s : State) (k : Nat) (p : Phase)
    (hp : p ≠ .due → ∀ r, s.trunk? k = some r → r.phase ≠ .due) (u : Nat)
    (h : s.cutoffReached u = false) :
    (s.modTrunk k fun r => { r with phase := p }).cutoffReached u = false := by
  unfold State.cutoffReached at h ⊢
  rw [State.trunk?_modTrunk]
  split
  · obtain rfl := ‹u = k›
    cases hr : s.trunk? u with
    | none => rfl
    | some r =>
      by_cases hd : p = .due
      · simp [hd]
      · have := hp hd r hr
        simp only [hr, Option.any_some, this, ne_eq, not_false_eq_true, decide_true, Bool.true_and] at h
        simpa [hd] using h
  · exact h

theorem Work.flushesNothing.raise {w : Work} (h : w.flushesNothing s) (c : CondName) (x : Subject) :
    w.flushesNothing (s.raise c x) :=
  h.mono (fun u r hr => ⟨r, by simpa using hr, rfl⟩) fun u hu => by rwa [State.cutoffReached_raise]

theorem Work.flushesNothing.modPhase {w : Work} (h : w.flushesNothing s) (k : Nat) (p : Phase)
    (hp : p ≠ .due → ∀ r, s.trunk? k = some r → r.phase ≠ .due) :
    w.flushesNothing (s.modTrunk k fun r => { r with phase := p }) :=
  h.mono (s.window_modPhase k p) (s.cutoffReached_modPhase k p hp)

theorem Work.flushesNothing.enterClosing {w : Work} (h : w.flushesNothing s) (k : Nat)
    (hp : ∀ r, s.trunk? k = some r → r.phase ≠ .due) : w.flushesNothing (s.enterClosing k) :=
  (h.modPhase k .closing fun _ => hp).raise ..

theorem State.NothingToGrant.enterClosing (h : s.NothingToGrant) (k : Nat) :
    (s.enterClosing k).NothingToGrant :=
  State.NothingToGrant.raise (s := s.modTrunk _ _) h ..

/-! ## One item -/

/-- Calm work in a state with nothing to grant. -/
theorem settles_perform_calm {w : Work} {ws : List Work} (hr : e.s.rotationWhole)
    (h : e.s.NothingToGrant) (hw : w.calm = true) (hws : ∀ v ∈ ws, v.calm = true) :
    (({ e with work := ws } : Ev).perform w).Settles := by
  cases w with
  | dueEnd t f =>
    show (Ev.dueEnd _ t f).Settles
    unfold Ev.dueEnd
    split
    · exact .of_calm (h.raise ..) hws
    · exact .of_calm h hws
  | trunkReport =>
    show (Ev.trunkReport _).Settles
    unfold Ev.trunkReport
    split
    · exact Ev.settles_push_closing (e := { e with work := ws }) hws
    · rename_i hany
      refine .inr ⟨h, .inl ⟨[.trunkDeadlines trunkNumbers], ws, rfl, ?_, hws⟩⟩
      have hall : ∀ t ∈ trunkNumbers, e.s.cutoffReached t = false := by simpa using hany
      rw [List.forall_mem_singleton]
      exact fun t ht => Or.inl (hall t ht)
  | moverReport =>
    show (Ev.moverReport _).Settles
    unfold Ev.moverReport
    split
    · exact Ev.settles_push_closing (e := { e with work := ws }) hws
    · rename_i hany
      have hall : ∀ m ∈ moverNumbers, e.s.acceptReached m = false := by simpa using hany
      exact .inr ⟨h, .inr ⟨moverNumbers, ws, rfl, hall, hws⟩⟩
  | lanePressure => exact .of_calm (h.report ..) hws
  | balanceHold => exact .of_calm (h.report ..) hws
  | grantAttempt => exact .of_calm (State.grantAttempt_nothingToGrant hr) hws
  | moversShort => exact .of_calm (h.report ..) hws
  | verdict a k x r => exact .of_calm (h.sendVerdict ..) hws
  | answer due => exact .of_calm (h.giveResult ..) hws
  | answerRelease due => exact .of_calm (h.giveResult ..) hws
  | _ => cases hw

/-- The deadline of a trunk that flushes nothing. -/
theorem settles_trunkDeadline {us vs : List Work} (h : e.s.NothingToGrant) (k : Nat)
    (hk : e.s.cutoffReached k = false ∨
      ∀ r, e.s.trunk? k = some r → ∀ b ∈ r.window, Cause.reaches .cutOff b.standing = false)
    (hw : e.work = us ++ vs) (hus : ∀ u ∈ us, u.flushesNothing e.s) (hvs : ∀ v ∈ vs, v.calm = true) :
    (e.trunkDeadline k).Settles := by
  unfold Ev.trunkDeadline
  split
  · rename_i hc
    have hk := hk.resolve_left (by rw [hc]; simp)
    unfold Ev.enterDue
    split
    · exact .inr ⟨h, .inl ⟨us, vs, hw, hus, hvs⟩⟩
    · rename_i r hr
      have hph : ∀ r', e.s.trunk? k = some r' → r'.phase ≠ .due := fun r' hr' hd => by
        simp [State.cutoffReached, hr', hd] at hc
      have hs : ∃ x, (if r.phase = .opened then e.s.enterClosing k else e.s) = x ∧
          x.NothingToGrant ∧ ∀ w : Work, w.flushesNothing e.s → w.flushesNothing x :=
        ⟨_, rfl, by split; exacts [h.enterClosing k, h],
          fun w hw => by split; exacts [hw.enterClosing k hph, hw]⟩
      obtain ⟨x, hx, hn, hf⟩ := hs
      dsimp only
      rw [hx]
      have hf' (w : Work) (hw : w.flushesNothing e.s) :
          w.flushesNothing (x.modTrunk k fun r => { r with phase := .due }) :=
        (hf w hw).modPhase k .due fun h => absurd rfl h
      refine .inr ⟨hn, .inl ⟨[.flushBookings k .cutOff, .dueEnd k
        (r.window.any fun b => b.standing = .unreleased)] ++ us, vs, ?_, ?_, hvs⟩⟩
      · simp [Ev.push, hw]
      · rw [List.cons_append, List.cons_append, List.nil_append, List.forall_mem_cons, List.forall_mem_cons]
        exact ⟨hf' (.flushBookings k .cutOff) hk, hf' (.dueEnd ..) trivial, fun u hu => hf' u (hus u hu)⟩
  · split
    · rename_i hc
      refine .inr ⟨h.enterClosing k, .inl ⟨us, vs, hw, fun u hu => (hus u hu).enterClosing k ?_, hvs⟩⟩
      intro r hr hd
      simp [State.closeReached, hr, hd] at hc
    · exact .inr ⟨h, .inl ⟨us, vs, hw, hus, hvs⟩⟩

/-- Work that flushes nothing in a state with nothing to grant. -/
theorem settles_perform_flushesNothing {w : Work} {us vs : List Work} (h : e.s.NothingToGrant)
    (hw : w.flushesNothing e.s) (hus : ∀ u ∈ us, u.flushesNothing e.s)
    (hvs : ∀ v ∈ vs, v.calm = true) :
    (({ e with work := us ++ vs } : Ev).perform w).Settles := by
  have keep : ({ e with work := us ++ vs } : Ev).Settles := .inr ⟨h, .inl ⟨us, vs, rfl, hus, hvs⟩⟩
  cases w with
  | trunkDeadlines ts =>
    cases ts with
    | nil => exact keep
    | cons k ts =>
      refine settles_trunkDeadline (e := ({ e with work := us ++ vs } : Ev).push [.trunkDeadlines ts])
        (us := .trunkDeadlines ts :: us) h k (hw k (by simp)) rfl ?_ hvs
      rw [List.forall_mem_cons]
      exact ⟨fun u hu => hw u (by simp [hu]), hus⟩
  | flushBookings k c =>
    show (Ev.flushBookings _ k c).Settles
    rwa [ev_flushBookings_of_none { e with work := us ++ vs } k c hw]
  | dueEnd k f =>
    show (Ev.dueEnd _ k f).Settles
    unfold Ev.dueEnd
    split
    · exact .inr ⟨h.raise .., .inl ⟨us, vs, rfl, fun u hu => (hus u hu).raise .., hvs⟩⟩
    · exact keep
  | _ => cases hw

theorem settles_perform {w : Work} {ws : List Work} (hr : e.s.rotationWhole) (h : e.Settles)
    (hw : e.work = w :: ws) : (({ e with work := ws } : Ev).perform w).Settles := by
  obtain ⟨us, vs, hx, hvs⟩ | ⟨hn, ⟨us, vs, hx, hus, hvs⟩ | ⟨ms, vs, hx, hms, hvs⟩⟩ := h
  · rw [hw] at hx
    cases us with
    | nil =>
      obtain ⟨rfl, rfl⟩ := List.cons.inj hx
      exact .of_calm (State.grantAttempt_nothingToGrant hr) hvs
    | cons u us =>
      obtain ⟨rfl, rfl⟩ := List.cons.inj hx
      obtain ⟨ps, hps⟩ := perform_work { e with work := us ++ Work.grantAttempt :: vs } w
      exact .of_attempt (ws := ps ++ us) (vs := vs) (by
        rw [List.append_assoc]; exact hps) hvs
  · rw [hw] at hx
    cases us with
    | nil =>
      subst hx
      rw [List.forall_mem_cons] at hvs
      exact settles_perform_calm hr hn hvs.1 hvs.2
    | cons u us =>
      obtain ⟨rfl, rfl⟩ := List.cons.inj hx
      rw [List.forall_mem_cons] at hus
      exact settles_perform_flushesNothing hn hus.1 hus.2 hvs
  · rw [hw] at hx
    obtain ⟨rfl, rfl⟩ := List.cons.inj hx
    exact .of_calm (hn.moverDeadlines ms hms) hvs

/-! ## Whole events -/

theorem drain_nothingToGrant (n : Nat) : ∀ {e : Ev} {t : State}, e.s.rotationWhole → e.Settles →
    drain n e = some t → t.NothingToGrant := by
  induction n with
  | zero =>
    intro e t _ h hd
    cases hw : e.work with
    | nil =>
      rw [drain_of_nil _ hw] at hd
      obtain rfl := Option.some.inj hd
      obtain ⟨us, vs, hx, -⟩ | ⟨hn, -⟩ := h
      · rw [hw] at hx; simp at hx
      · exact hn
    | cons w ws => simp [drain, hw] at hd
  | succ n ih =>
    intro e t hr h hd
    cases hw : e.work with
    | nil =>
      rw [drain_of_nil _ hw] at hd
      obtain rfl := Option.some.inj hd
      obtain ⟨us, vs, hx, -⟩ | ⟨hn, -⟩ := h
      · rw [hw] at hx; simp at hx
      · exact hn
    | cons w ws =>
      rw [drain_of_cons n hw] at hd
      exact ih (State.rotationWhole.written.perform (e := { e with work := ws }) w hr)
        (settles_perform hr h hw) hd

theorem runEvent_nothingToGrant (hr : e.s.rotationWhole) (h : e.Settles)
    (he : runEvent e = .next t) : t.NothingToGrant := by
  unfold runEvent at he
  split at he
  · cases he
    exact drain_nothingToGrant _ hr h ‹_›
  · cases he

end Sys2Proof.Machine

/-! Every command, and the grants of R116 and R117: no step leaves a free mover beside a waiting move. -/

namespace Sys2Proof.Machine

variable {s t : State} {e : Ev}

/-! ## What the rules answer -/

/-- The outcome of a rule leaves no free mover beside a waiting move. -/
def Taken.Settles : Taken → Prop
  | .refused _ => True
  | .done s _ => s.NothingToGrant
  | .event e => e.Settles
  | .release e => e.Settles

theorem Ev.Settles.append (h : e.Settles) {v : Work} (hv : v.calm = true) :
    ({ e with work := e.work ++ [v] } : Ev).Settles := by
  have calm {vs : List Work} (hvs : ∀ v ∈ vs, v.calm = true) : ∀ x ∈ vs ++ [v], x.calm = true := by
    simpa [or_imp, forall_and] using ⟨hvs, hv⟩
  obtain ⟨us, vs, hw, hvs⟩ | ⟨hn, ⟨us, vs, hw, hus, hvs⟩ | ⟨ms, vs, hw, hms, hvs⟩⟩ := h
  · exact .of_attempt (ws := us) (vs := vs ++ [v]) (by simp [hw]) (calm hvs)
  · exact .inr ⟨hn, .inl ⟨us, vs ++ [v], by simp [hw], hus, calm hvs⟩⟩
  · exact .inr ⟨hn, .inr ⟨ms, vs ++ [v], by simp [hw], hms, calm hvs⟩⟩

theorem Ev.Settles.of_closing {ws : List Work} (hw : e.work = ws ++ closing) : e.Settles :=
  .of_attempt (ws := ws ++ [.lanePressure]) (vs := [.moversShort]) (by simp [hw, closing])
    (by simp [Work.calm])

theorem takeRequest_nothingToGrant {c : Instr} {rule : State → Taken} (hs : s.NothingToGrant)
    (hr : (rule s).All State.rotationWhole) (h : (rule s).Settles)
    (ht : takeRequest c rule s = .next t) : t.NothingToGrant := by
  unfold takeRequest at ht
  dsimp only at ht
  split at ht
  · cases ht; exact hs
  · cases e : rule s <;> rw [e] at ht hr h <;> dsimp only at ht
    · cases ht; exact hs.giveResult ..
    · split at ht
      · cases ht; exact State.NothingToGrant.giveResult h ..
      · cases ht; exact hs.giveResult ..
    · refine runEvent_nothingToGrant ?_ ?_ ht
      · exact hr
      · exact Ev.Settles.append h (v := .answer (s.isDue c)) rfl
    · split at ht
      · refine runEvent_nothingToGrant ?_ ?_ ht
        · exact hr
        · exact Ev.Settles.append h (v := .answerRelease (s.isDue c)) rfl
      · cases ht; exact hs.giveResult ..

theorem reads_settles {rule : State → Taken} (hr : ReadsOnly rule) (hs : s.NothingToGrant) :
    (rule s).Settles := by
  obtain ⟨r, e⟩ | ⟨x, e⟩ := hr s <;> rw [e]
  · trivial
  · exact hs

/-! ## The rules of the requests -/

theorem State.NothingToGrant.setStandby (h : s.NothingToGrant) (b : Bank) :
    (s.setStandby b).NothingToGrant := by
  unfold State.setStandby
  split <;> exact h

theorem putZone_settles (h : s.NothingToGrant) (f l depot hold) : (putZone f l depot hold s).Settles := by
  unfold putZone
  dsimp only
  repeat' split
  all_goals first | trivial | exact h.setStandby _

theorem dropZone_settles (h : s.NothingToGrant) (f) : (dropZone f s).Settles := by
  unfold dropZone
  dsimp only
  repeat' split
  all_goals first | trivial | exact h.setStandby _

theorem putDepotRow_settles (h : s.NothingToGrant) (depot cls n ts) :
    (putDepotRow depot cls n ts s).Settles := by
  unfold putDepotRow
  dsimp only
  repeat' split
  all_goals first | trivial | exact h.setStandby _

theorem dropDepotRow_settles (h : s.NothingToGrant) (depot cls) :
    (dropDepotRow depot cls s).Settles := by
  unfold dropDepotRow
  dsimp only
  repeat' split
  all_goals first | trivial | exact h.setStandby _

/-- The reports of the clock free movers only with a grant attempt after it. -/
theorem clockReports_settles (h : s.NothingToGrant) :
    Ev.Settles { s := s.clockReports.1, work := s.clockReports.2 } := by
  have hs : s.clockReports.1.NothingToGrant ∧ ∀ v ∈ s.clockReports.2, v.calm = true := by
    unfold State.clockReports
    repeat' split
    all_goals exact ⟨h, by simp [Work.calm]⟩
  exact .of_calm hs.1 hs.2

theorem startShift_settles (h : s.NothingToGrant) (time) : (startShift time s).Settles := by
  unfold startShift
  split
  · trivial
  · split
    · trivial
    · exact clockReports_settles
        (s := { s with clock := { value := time, running := true, periods := 0 } }) h

theorem putTrailerClass_settles (h : s.NothingToGrant) (n c) : (putTrailerClass n c s).Settles := by
  unfold putTrailerClass
  split
  · trivial
  · split
    · trivial
    · exact h

/-- The deadline of a trunk with an empty window. -/
theorem settles_emptyWindow (k : Nat) (hn : e.s.NothingToGrant) (hw : e.work = [.trunkDeadlines [k]])
    (hr : ∀ r, e.s.trunk? k = some r → r.window = []) : e.Settles := by
  refine .inr ⟨hn, .inl ⟨[.trunkDeadlines [k]], [], hw, ?_, by simp⟩⟩
  rw [List.forall_mem_singleton]
  show ∀ u ∈ [k], _
  rw [List.forall_mem_singleton]
  exact .inr fun r h b hb => by rw [hr r h] at hb; cases hb

theorem putTrunk_settles (h : s.NothingToGrant) (k da db cls cut m) :
    (putTrunk k da db cls cut m s).Settles := by
  unfold putTrunk
  split
  · trivial
  · split
    · trivial
    · dsimp only
      split
      · refine settles_emptyWindow k h rfl fun r hr => ?_
        have hr : (s.addTrunk k (newTrunk da db cls cut m .unplaced)).trunk? k = some r := hr
        rw [State.addTrunk, State.trunk?, Table.get?_put, if_pos rfl] at hr
        cases hr
        rfl
      · rename_i r0 hr0
        split
        · trivial
        · rename_i hw
          refine settles_emptyWindow k h rfl fun r hr => ?_
          rw [State.trunk?_modTrunk, if_pos rfl, hr0] at hr
          cases hr
          exact show r0.window = [] by simpa using hw

theorem setCutoff_settles (k cut m) : (setCutoff k cut m s).Settles := by
  unfold setCutoff
  repeat' split
  all_goals first | trivial | exact .of_closing (ws := [.trunkDeadlines [k]]) rfl

theorem dropTrunk_settles (k) : (dropTrunk k s).Settles := by
  unfold dropTrunk
  repeat' split
  all_goals first
    | trivial
    | exact .of_closing (ws := [.flushBookings k .cancelled, .leaveDoor k,
        .flushBookings k .cancelled, .removeTrunk k]) rfl

theorem departTrunk_settles (k) : (departTrunk k s).Settles := by
  unfold departTrunk
  repeat' split
  all_goals first
    | trivial
    | exact .of_closing (ws := [.flushBookings k .departed, .freeLoaded k, .leaveDoor k,
        .flushBookings k .departed, .removeTrunk k]) rfl

theorem placeActiveRule_settles (k d ok) : (placeActiveRule k d ok s).Settles := by
  unfold placeActiveRule
  repeat' split
  all_goals first | trivial | exact .of_closing (ws := [.pass d (some k), .attempt k]) rfl

theorem placeNextRule_settles (h : s.NothingToGrant) (k d) : (placeNextRule k d s).Settles := by
  unfold placeNextRule
  dsimp only
  repeat' split
  all_goals first | trivial | exact h | exact .of_closing (ws := [.pass d none]) rfl

theorem setDoor_settles (h : s.NothingToGrant) (d a b c f) : (setDoor d a b c f s).Settles := by
  unfold setDoor
  dsimp only
  repeat' split
  all_goals first | trivial | exact h | exact .of_closing (ws := [.pass d none]) rfl

theorem forceRelease_settles (d) : (forceRelease d s).Settles := by
  unfold forceRelease
  repeat' split
  all_goals first | trivial | exact .of_closing (ws := [_]) rfl

theorem removePallet_settles (l) : (removePallet l s).Settles := by
  unfold removePallet
  repeat' split
  all_goals first | trivial | exact .of_closing (ws := []) rfl

/-- A change of a set of conditions writes the conditions alone. -/
theorem State.modConditions_eq (s : State) (set : BitVec 16) (f : CondName → Condition → Condition) :
    ∃ k, s.modConditions set f = { s with conditions := k } := by
  unfold State.modConditions
  generalize CondName.all = cs
  induction cs generalizing s with
  | nil => exact ⟨s.conditions, rfl⟩
  | cons c cs ih =>
    rw [List.foldl_cons]
    split
    · obtain ⟨k, h⟩ := ih (s.modCondition c (f c))
      exact ⟨k, by rw [h]; rfl⟩
    · exact ih s

theorem State.NothingToGrant.modConditions (h : s.NothingToGrant) (set f) :
    (s.modConditions set f).NothingToGrant := by
  obtain ⟨k, e⟩ := s.modConditions_eq set f
  rw [e]; exact h

theorem setNotice_settles (h : s.NothingToGrant) (set a b both keep) :
    (setNotice set a b both keep s).Settles := by
  unfold setNotice
  split
  · trivial
  · dsimp only
    generalize hx : s.modConditions set _ = x
    have hn : x.NothingToGrant := hx ▸ h.modConditions ..
    exact hn

theorem setChannel_settles (h : s.NothingToGrant) (ch pr a) : (setChannel ch pr a s).Settles := by
  unfold setChannel
  split
  · trivial
  · show State.NothingToGrant (if _ then _ else _)
    split <;> exact h

theorem setLimits_settles (h : s.NothingToGrant) (x) : (setLimits x s).Settles := by
  unfold setLimits
  split
  · trivial
  · exact State.NothingToGrant.report (s := { s with limits := x }) h ..

/-! ## The commands that are no requests -/

theorem finishScan_nothingToGrant {src : Address} {kind : Byte} {scan : ScanFields}
    {x : Ev × VerdictResult} (hr : x.1.s.rotationWhole) (ht : finishScan src kind scan x = .next t) :
    t.NothingToGrant := by
  unfold finishScan at ht
  refine runEvent_nothingToGrant ?_ ?_ ht
  · exact hr
  · exact (Ev.Settles.of_closing (e := { x.1 with work := x.1.work ++ closing }) rfl).append
      (v := .verdict src kind scan x.2) rfl

theorem takeScan_nothingToGrant {src : Address} {kind : Byte} {scan : ScanFields}
    (hs : s.NothingToGrant) (hr : s.rotationWhole) (ht : takeScan src kind scan s = .next t) :
    t.NothingToGrant := by
  have w := State.rotationWhole.written
  unfold takeScan at ht
  dsimp only at ht
  split at ht
  · cases ht; exact hs
  · split at ht
    · cases ht; exact hs.sendVerdict ..
    · split at ht
      · cases ht; exact hs.sendVerdict ..
      · split at ht
        · cases ht; exact hs.sendVerdict ..
        · split at ht
          · cases ht; exact hs.sendVerdict ..
          · exact finishScan_nothingToGrant
              (w.toKept.scanEvent w.addPallet _ _ (w.enterRepeat _ _ _ hr)) ht

theorem takeTerminal_nothingToGrant {mover : Byte} {rule : Nat → State → State}
    (hs : s.NothingToGrant) (hr : ∀ m, (rule m s).rotationWhole)
    (ht : takeTerminal mover rule s = .next t) : t.NothingToGrant := by
  unfold takeTerminal at ht
  dsimp only at ht
  split at ht
  · cases ht; exact hs
  · exact runEvent_nothingToGrant (hr _) (.of_closing (ws := []) rfl) ht

theorem takeReports_nothingToGrant (hs : s.NothingToGrant) (hr : s.rotationWhole)
    (ht : s.takeReports = .next t) : t.NothingToGrant :=
  runEvent_nothingToGrant (State.rotationWhole.written.clockReports hr) (clockReports_settles hs) ht

theorem clockAdvance_nothingToGrant (hs : s.NothingToGrant) (hr : s.rotationWhole)
    (ht : execClockAdvance s = .next t) : t.NothingToGrant := by
  unfold execClockAdvance at ht
  split at ht
  · cases hu : s.takeReports with
    | next u =>
      rw [hu] at ht
      cases ht
      exact (takeReports_nothingToGrant hs hr hu).same rfl rfl
    | fault => rw [hu] at ht; cases ht
    | refused => rw [hu] at ht; cases ht
  · cases ht
    exact hs

theorem idle_nothingToGrant (hs : s.NothingToGrant) (hr : s.rotationWhole) (ht : s.idle = .next t) :
    t.NothingToGrant := by
  unfold State.idle at ht
  split at ht
  · exact takeReports_nothingToGrant hs hr ht
  · cases ht; exact hs

theorem State.NothingToGrant.setPort (h : s.NothingToGrant) (p : Port) (x : PortState) :
    (s.setPort p x).NothingToGrant := by
  cases p <;> exact h

theorem State.NothingToGrant.placePass (h : s.NothingToGrant) (p : Port) (f : List Byte) :
    (s.placePass p f).NothingToGrant := by
  obtain ⟨-, e⟩ | ⟨-, e⟩ := placePass_cases s p f <;> rw [e]
  · exact h
  · exact h.setPort ..

theorem transmissionEnd_nothingToGrant {p : Port} {hub : Byte} {unit : BitVec 4}
    (hs : s.NothingToGrant) (ht : execTransmissionEnd p hub unit s = .next t) : t.NothingToGrant := by
  unfold execTransmissionEnd at ht
  split at ht
  · split at ht
    · cases ht
      unfold State.executeRestart
      split <;> exact .inl rfl
    · cases ht; exact hs
  · cases ht; exact hs.setPort ..

theorem mgmtFrame_nothingToGrant {src : Address} {body : List Byte} (hs : s.NothingToGrant)
    (ht : execMgmtFrame src body s = .next t) : t.NothingToGrant := by
  unfold execMgmtFrame at ht
  split at ht
  · cases ht; exact hs
  · split at ht
    · cases ht
      unfold State.refuseFrame
      dsimp only
      split
      · exact hs.placeOwn ..
      · exact State.NothingToGrant.placeOwn (s := { s with freeCount := s.freeCount + 1 }) hs ..
    · split at ht <;> cases ht <;> exact hs

theorem takeRestart_nothingToGrant {c : Instr} {ok : Bool} {k : RestartKind} (hs : s.NothingToGrant)
    (ht : takeRestart c ok k s = .next t) : t.NothingToGrant := by
  unfold takeRestart at ht
  split at ht
  · cases ht; exact hs
  · split at ht
    · cases ht
      unfold State.giveRestart
      dsimp only
      repeat' split
      all_goals exact hs
    · cases ht; exact hs.giveResult ..

/-! ## Commands and steps -/

theorem exec_nothingToGrant {c : Instr} (hr : s.rotationWhole) (hs : s.NothingToGrant)
    (ht : exec c s = .next t) : t.NothingToGrant := by
  have w := State.rotationWhole.written
  have read {c rule} (ht : takeRequest c rule s = .next t) (h : ReadsOnly rule) : t.NothingToGrant :=
    takeRequest_nothingToGrant hs (Written.reads h hr) (reads_settles h hs) ht
  have request {c rule} (ht : takeRequest c rule s = .next t) (h : (rule s).All State.rotationWhole)
      (h' : (rule s).Settles) : t.NothingToGrant := takeRequest_nothingToGrant hs h h' ht
  have report {b : Bool} {v} (hv : v.calm = true)
      (ht : (if b then runEvent { s := s, work := [v] } else .next s) = .next t) :
      t.NothingToGrant := by
    split at ht
    · exact runEvent_nothingToGrant (e := { s := s, work := [v] }) hr
        (.of_calm hs (by simpa using hv)) ht
    · cases ht; exact hs
  cases c with
  | intakeScan src x =>
    rw [exec_intakeScan] at ht
    exact takeScan_nothingToGrant hs hr ht
  | laneScan src x =>
    rw [exec_laneScan] at ht
    exact takeScan_nothingToGrant hs hr ht
  | loadScan src x =>
    rw [exec_loadScan] at ht
    exact takeScan_nothingToGrant hs hr ht
  | reworkScan src x =>
    rw [exec_reworkScan] at ht
    exact takeScan_nothingToGrant hs hr ht
  | badPlaceKindScan src k x =>
    rw [exec_badPlaceKindScan] at ht
    exact takeScan_nothingToGrant hs hr ht
  | signOn src m =>
    rw [exec_signOn] at ht
    exact takeTerminal_nothingToGrant hs (fun m => w.toKept.signOn src m hr) ht
  | signOff m =>
    rw [exec_signOff] at ht
    exact takeTerminal_nothingToGrant hs (fun m => w.toKept.signOff m hr) ht
  | accept m n =>
    rw [exec_accept] at ht
    exact takeTerminal_nothingToGrant hs (fun m => w.toKept.acceptFrame m _ hr) ht
  | decline m n =>
    rw [exec_decline] at ht
    exact takeTerminal_nothingToGrant hs (fun m => w.toKept.declineFrame m _ hr) ht
  | abandon m n =>
    rw [exec_abandon] at ht
    exact takeTerminal_nothingToGrant hs (fun m => w.toKept.abandonFrame m _ hr) ht
  | acceptTimeout m =>
    rw [exec_acceptTimeout] at ht
    exact report rfl ht
  | doneTimeout m =>
    rw [exec_doneTimeout] at ht
    exact report rfl ht
  | clockAdvance =>
    rw [exec_clockAdvance] at ht
    exact clockAdvance_nothingToGrant hs hr ht
  | closeTimeReached k =>
    rw [exec_closeTimeReached] at ht
    exact report rfl ht
  | cutoffReached k =>
    rw [exec_cutoffReached] at ht
    exact report rfl ht
  | forwardFrame p f =>
    rw [exec_forwardFrame] at ht
    split at ht
    · cases ht; exact hs.placePass ..
    · cases ht; exact hs
  | discardFrame p f =>
    rw [exec_discardFrame] at ht
    cases ht
    exact hs
  | transmissionEnd p hub unit =>
    rw [exec_transmissionEnd] at ht
    exact transmissionEnd_nothingToGrant hs ht
  | pinReset hub unit =>
    rw [exec_pinReset] at ht
    cases ht
    exact .inl rfl
  | mgmtFrame src body =>
    rw [exec_mgmtFrame] at ht
    exact mgmtFrame_nothingToGrant hs ht
  | badRequestCode code params =>
    rw [exec_badRequestCode] at ht
    exact request ht trivial trivial
  | readPallet l =>
    rw [exec_readPallet] at ht
    exact read ht (readPallet_readsOnly l)
  | probe k x =>
    rw [exec_probe] at ht
    exact read ht fun _ => .inr ⟨_, rfl⟩
  | putZone f l depot hold =>
    rw [exec_putZone] at ht
    exact request ht (w.putZone _ _ _ _ hr) (putZone_settles hs ..)
  | dropZone f =>
    rw [exec_dropZone] at ht
    exact request ht (w.dropZone _ hr) (dropZone_settles hs _)
  | putDepotRow depot cls n a b c d =>
    rw [exec_putDepotRow] at ht
    exact request ht (w.putDepotRow _ _ _ _ hr) (putDepotRow_settles hs ..)
  | dropDepotRow depot cls =>
    rw [exec_dropDepotRow] at ht
    exact request ht (w.dropDepotRow _ _ hr) (dropDepotRow_settles hs ..)
  | copyBank =>
    rw [exec_copyBank] at ht
    exact request ht (w.copyBank hr) (hs.setStandby _)
  | clearBank =>
    rw [exec_clearBank] at ht
    exact request ht (w.setStandby _ (fun _ _ => Bank.within.empty) hr) (hs.setStandby _)
  | switchBank =>
    rw [exec_switchBank] at ht
    exact request ht (w.switchBank hr)
      (State.NothingToGrant.raise (s := { s with active := s.active.other }) hs ..)
  | readZone role z =>
    rw [exec_readZone] at ht
    exact read ht (readZone_readsOnly role z)
  | readDepotRow role depot cls =>
    rw [exec_readDepotRow] at ht
    exact read ht (readDepotRow_readsOnly role depot cls)
  | startShift time =>
    rw [exec_startShift] at ht
    exact request ht (w.startShift _ hr) (startShift_settles hs _)
  | stopShift =>
    rw [exec_stopShift] at ht
    exact request ht (w.clock _ id hr) hs
  | readClock =>
    rw [exec_readClock] at ht
    exact read ht fun _ => .inr ⟨_, rfl⟩
  | putTrailerClass cls n p f a tk ta kl al pl =>
    rw [exec_putTrailerClass] at ht
    exact request ht (w.putTrailerClass _ _ hr) (putTrailerClass_settles hs ..)
  | readTrailerClass cls =>
    rw [exec_readTrailerClass] at ht
    exact read ht (readTrailerClass_readsOnly _)
  | putTrunk k da db cls cut m =>
    rw [exec_putTrunk] at ht
    exact request ht (w.putTrunk _ _ _ _ _ _ hr) (putTrunk_settles hs ..)
  | setCutoff k cut m =>
    rw [exec_setCutoff] at ht
    exact request ht (w.setCutoff _ _ _ hr) (setCutoff_settles ..)
  | dropTrunk k =>
    rw [exec_dropTrunk] at ht
    exact request ht (w.dropTrunk _ hr) (dropTrunk_settles _)
  | placeActive k d mode =>
    rw [exec_placeActive] at ht
    exact request ht (w.placeActiveRule _ _ _ hr) (placeActiveRule_settles ..)
  | placeNext k d =>
    rw [exec_placeNext] at ht
    exact request ht (w.placeNextRule _ _ hr) (placeNextRule_settles hs ..)
  | depart k =>
    rw [exec_depart] at ht
    exact request ht (w.departTrunk _ hr) (departTrunk_settles _)
  | setDoor d a b c f =>
    rw [exec_setDoor] at ht
    exact request ht (w.setDoor _ _ _ _ _ hr) (setDoor_settles hs ..)
  | readTrunk k start =>
    rw [exec_readTrunk] at ht
    exact read ht (readTrunk_readsOnly _ _)
  | readDoor d =>
    rw [exec_readDoor] at ht
    exact read ht (readDoor_readsOnly _)
  | readMover m =>
    rw [exec_readMover] at ht
    exact read ht (readMover_readsOnly _)
  | forceRelease d =>
    rw [exec_forceRelease] at ht
    exact request ht (w.forceRelease _ hr) (forceRelease_settles _)
  | removePallet l =>
    rw [exec_removePallet] at ht
    exact request ht (w.removePallet _ hr) (removePallet_settles _)
  | clearNotice set =>
    rw [exec_clearNotice] at ht
    exact request ht (w.modConditions _ _ hr) (hs.modConditions ..)
  | testNotice v =>
    rw [exec_testNotice] at ht
    exact request ht (w.raise _ _ hr) (hs.raise ..)
  | setNotice set a b both keep =>
    rw [exec_setNotice] at ht
    exact request ht (w.setNotice _ _ _ _ _ hr) (setNotice_settles hs ..)
  | setChannel ch pr a =>
    rw [exec_setChannel] at ht
    exact request ht (w.setChannel _ _ _ hr) (setChannel_settles hs ..)
  | readNotices =>
    rw [exec_readNotices] at ht
    exact read ht fun _ => .inr ⟨_, rfl⟩
  | setLimits rw at' dn al th hw =>
    rw [exec_setLimits] at ht
    exact request ht (w.setLimits _ hr) (setLimits_settles hs _)
  | setOutputs a =>
    rw [exec_setOutputs] at ht
    exact request ht (w.settings _ _ _ _ _ _ _ _ _ _ _ hr) hs
  | readSettings =>
    rw [exec_readSettings] at ht
    exact read ht fun _ => .inr ⟨_, rfl⟩
  | restartFull k =>
    rw [exec_restartFull] at ht
    exact takeRestart_nothingToGrant hs ht
  | restartFloor =>
    rw [exec_restartFloor] at ht
    exact takeRestart_nothingToGrant hs ht

theorem step_nothingToGrant (hr : s.rotationWhole) (hs : s.NothingToGrant) (ht : step s = .next t) :
    t.NothingToGrant := by
  unfold step at ht
  split at ht
  · exact idle_nothingToGrant hs hr ht
  · refine exec_nothingToGrant ?_ ?_ ht
    · exact hr
    · exact hs

/-! ## The statement -/

theorem State.atLastSecond_iff (s : State) :
    s.atLastSecond = true ↔ s.clock.running = true ∧ s.clock.value = 86399 := by
  simp [State.atLastSecond]

theorem State.clock_sendDirective (s : State) (m : Nat) (d : Directive) :
    (s.sendDirective m d).clock = s.clock := by
  obtain ⟨_, _, h⟩ := s.sendDirective_eq m d; rw [h]

theorem State.clock_sendOffer (s : State) (l : Label) (m : Nat) : (s.sendOffer l m).clock = s.clock := by
  unfold State.sendOffer
  repeat' split
  all_goals first | rfl | exact s.clock_sendDirective ..

/-- An OFFER sent with the clock RUNNING at its last second is reached at once (R114). -/
theorem State.expireIfReached_offered (s : State) (m q : Nat) (ms : List Nat) (l : Label)
    (ls : List Label) :
    (((s.afterCount q ms ls).offer m l).sendOffer l m).expireIfReached m =
      if s.clock.running = true ∧ s.clock.value = 86399 then
        (((s.afterCount q ms ls).offer m l).sendOffer l m).expireOffer m
      else ((s.afterCount q ms ls).offer m l).sendOffer l m := by
  have hc : (((s.afterCount q ms ls).offer m l).sendOffer l m).clock = s.clock :=
    (State.clock_sendOffer ..).trans rfl
  unfold State.expireIfReached
  simp only [State.atLastSecond_iff, hc]

/-- Settles O60: what stands ahead of an event's end is an attempt, or nothing that frees a mover or
queues a move; and one grant is unfolded into its parts. -/
theorem grantAttemptLeavesNoMoverBesideAMove : Obligations.GrantAttemptLeavesNoMoverBesideAMove := by
  unfold Obligations.GrantAttemptLeavesNoMoverBesideAMove
  have w := State.rotationWhole.written
  refine ⟨fun s t hr hs ht => ⟨w.step ht hr, step_nothingToGrant hr hs ht⟩,
    ⟨State.rotationWhole.reset, .inl rfl⟩,
    fun s hr => ⟨State.grantAttempt_nothingToGrant hr, w.toKept.grantAttempt hr⟩, ?_⟩
  intro s m q ms l ls p mv
  refine ⟨State.chooseQueue_iff s q, fun h => State.grants_of_none h _, ?_⟩
  intro hf hm hc hq hl hp hpl hmv
  have hp' : (s.afterCount q ms ls).pallet? l = some p := hp
  rw [State.grantAttempt_eq hf hm hc hq, State.grant_eq hf hm hq hl, State.expireIfReached_offered,
    State.sendOffer_offer hp' hpl hmv, State.offer_eq hp' hmv]
  rfl

end Sys2Proof.Machine

/-! Bytes and frames (chapters 10.1 and 11): requests, management bodies, and the classification of a received frame. -/

namespace Sys2Proof.Machine

variable {s t : State}

/-- Settles O1: by the definition of a step. -/
theorem stepRunsTheFrontCommand : Obligations.StepRunsTheFrontCommand := fun _ _ => rfl

/-- Settles O2: by the command, each with its own law. -/
theorem requestsDecodeFromTheirEncoding : Obligations.RequestsDecodeFromTheirEncoding := by
  intro i
  cases i with
  | intakeScan src scan => exact Laws.Request.intakeScan src scan
  | laneScan src scan => exact Laws.Request.laneScan src scan
  | loadScan src scan => exact Laws.Request.loadScan src scan
  | reworkScan src scan => exact Laws.Request.reworkScan src scan
  | badPlaceKindScan src kind scan => exact Laws.Request.badPlaceKindScan src kind scan
  | signOn src mover => exact Laws.Request.signOn src mover
  | signOff mover => exact Laws.Request.signOff mover
  | accept mover move => exact Laws.Request.accept mover move
  | decline mover move => exact Laws.Request.decline mover move
  | abandon mover move => exact Laws.Request.abandon mover move
  | acceptTimeout mover => exact Laws.Request.acceptTimeout mover
  | doneTimeout mover => exact Laws.Request.doneTimeout mover
  | clockAdvance => exact Laws.Request.clockAdvance
  | closeTimeReached trunk => exact Laws.Request.closeTimeReached trunk
  | cutoffReached trunk => exact Laws.Request.cutoffReached trunk
  | forwardFrame port frame => exact Laws.Request.forwardFrame port frame
  | discardFrame port frame => exact Laws.Request.discardFrame port frame
  | transmissionEnd port hub unit => exact Laws.Request.transmissionEnd port hub unit
  | pinReset hub unit => exact Laws.Request.pinReset hub unit
  | mgmtFrame src body => exact Laws.Request.mgmtFrame src body
  | badRequestCode code params => exact Laws.Request.badRequestCode code params
  | readPallet label => exact Laws.Request.readPallet label
  | probe kind scan => exact Laws.Request.probe kind scan
  | putZone first last depot hold => exact Laws.Request.putZone first last depot hold
  | dropZone first => exact Laws.Request.dropZone first
  | putDepotRow depot cls count t1 t2 t3 t4 => exact Laws.Request.putDepotRow depot cls count t1 t2 t3 t4
  | dropDepotRow depot cls => exact Laws.Request.dropDepotRow depot cls
  | copyBank => exact Laws.Request.copyBank
  | clearBank => exact Laws.Request.clearBank
  | switchBank => exact Laws.Request.switchBank
  | readZone role zone => exact Laws.Request.readZone role zone
  | readDepotRow role depot cls => exact Laws.Request.readDepotRow role depot cls
  | startShift time => exact Laws.Request.startShift time
  | stopShift => exact Laws.Request.stopShift
  | readClock => exact Laws.Request.readClock
  | putTrailerClass cls rows pitch front axle kingpinTare axleTare kingpinLimit axleLimit payload => exact Laws.Request.putTrailerClass cls rows pitch front axle kingpinTare axleTare kingpinLimit axleLimit payload
  | readTrailerClass cls => exact Laws.Request.readTrailerClass cls
  | putTrunk trunk dropA dropB cls cutoff margin => exact Laws.Request.putTrunk trunk dropA dropB cls cutoff margin
  | setCutoff trunk cutoff margin => exact Laws.Request.setCutoff trunk cutoff margin
  | dropTrunk trunk => exact Laws.Request.dropTrunk trunk
  | placeActive trunk door mode => exact Laws.Request.placeActive trunk door mode
  | placeNext trunk door => exact Laws.Request.placeNext trunk door
  | depart trunk => exact Laws.Request.depart trunk
  | setDoor door slots reserve depth burst => exact Laws.Request.setDoor door slots reserve depth burst
  | readTrunk trunk start => exact Laws.Request.readTrunk trunk start
  | readDoor door => exact Laws.Request.readDoor door
  | readMover mover => exact Laws.Request.readMover mover
  | forceRelease door => exact Laws.Request.forceRelease door
  | removePallet label => exact Laws.Request.removePallet label
  | clearNotice set => exact Laws.Request.clearNotice set
  | testNotice value => exact Laws.Request.testNotice value
  | setNotice set enableA enableB bothWays keepAll => exact Laws.Request.setNotice set enableA enableB bothWays keepAll
  | setChannel channel presence address => exact Laws.Request.setChannel channel presence address
  | readNotices => exact Laws.Request.readNotices
  | setLimits repeatWindow acceptTimeout doneTimeout allowance threshold highWater => exact Laws.Request.setLimits repeatWindow acceptTimeout doneTimeout allowance threshold highWater
  | setOutputs address => exact Laws.Request.setOutputs address
  | readSettings => exact Laws.Request.readSettings
  | restartFull kind => exact Laws.Request.restartFull kind
  | restartFloor => exact Laws.Request.restartFloor

/-! ## Management bodies -/

/-- An element as it stands in a management body: code, length, parameters (R175). -/
def elementBytes (e : Byte × List Byte) : List Byte := [e.1, BitVec.ofNat 8 e.2.length] ++ e.2

/-- The counted elements are read back, whatever follows them. -/
theorem takeElements_flatMap (es : List (Byte × List Byte)) (rest : List Byte)
    (h : ∀ e ∈ es, e.2.length < 256) :
    takeElements es.length (es.flatMap elementBytes ++ rest) = some es := by
  induction es with
  | nil => rfl
  | cons e es ih =>
    rw [List.forall_mem_cons] at h
    have hlen : (BitVec.ofNat 8 e.2.length).toNat = e.2.length := by
      rw [BitVec.toNat_ofNat]; exact Nat.mod_eq_of_lt h.1
    have hbytes : (e :: es).flatMap elementBytes ++ rest =
        e.1 :: BitVec.ofNat 8 e.2.length :: (e.2 ++ (es.flatMap elementBytes ++ rest)) := by
      simp [elementBytes]
    rw [hbytes, List.length_cons, takeElements, hlen, if_pos (by simp), List.drop_left,
      List.take_left, ih h.2]
    rfl

/-- Settles O3: the elements are read back one by one, and the bytes after them are not read. -/
theorem managementBodyIsReadBack : Obligations.ManagementBodyIsReadBack := by
  intro tag flags es rest hpos hmax hlen
  have hbody : bytesOf tag 2 ++ [flags, BitVec.ofNat 8 es.length] ++ es.flatMap elementBytes ++ rest =
      tag.extractLsb' 8 8 :: tag.extractLsb' 0 8 :: flags :: BitVec.ofNat 8 es.length ::
        (es.flatMap elementBytes ++ rest) := by
    simp [bytesOf]
  have hcount : (BitVec.ofNat 8 es.length).toNat = es.length := by
    rw [BitVec.toNat_ofNat]; omega
  refine ⟨(congrArg bodyTag hbody).trans ?_, (congrArg bodyElements hbody).trans ?_⟩
  · exact congrArg some (cat2_bytes tag)
  · have hfits : ¬(decide ((BitVec.ofNat 8 es.length).toNat = 0) ||
        decide (Config.requestCapacity < (BitVec.ofNat 8 es.length).toNat)) = true := by
      rw [hcount]; simp only [Config.requestCapacity, Bool.or_eq_true, decide_eq_true_eq]; omega
    rw [bodyElements, if_neg hfits, hcount, takeElements_flatMap es rest hlen]
    rfl

/-! ## Elements that are no request -/

/-- The length of the parameters of a request code (R175's table). -/
def requestLength (code : Byte) : Option Nat :=
  match code.toNat with
  | 0x01 => some 6 | 0x02 => some 16 | 0x03 => some 8 | 0x04 => some 3 | 0x05 => some 7
  | 0x06 => some 2 | 0x07 => some 0 | 0x08 => some 0 | 0x09 => some 0 | 0x0A => some 4
  | 0x0B => some 3 | 0x10 => some 4 | 0x11 => some 0 | 0x12 => some 0 | 0x13 => some 18
  | 0x14 => some 1 | 0x15 => some 10 | 0x16 => some 7 | 0x17 => some 1 | 0x18 => some 3
  | 0x19 => some 1 | 0x1A => some 5 | 0x1B => some 2 | 0x1C => some 1 | 0x20 => some 1
  | 0x21 => some 1 | 0x22 => some 6 | 0x30 => some 2 | 0x31 => some 2 | 0x32 => some 6
  | 0x33 => some 8 | 0x34 => some 0 | 0x40 => some 10 | 0x41 => some 6 | 0x42 => some 0
  | 0x4F => some 1
  | _ => none

set_option linter.auxLemma false in
/-- An element of no request's code. -/
theorem decodeRequest_of_unknown {code : Byte} (params : List Byte) (h : requestLength code = none) :
    decodeRequest code params = .badRequestCode code params := by
  unfold requestLength at h
  split at h
  all_goals try cases h
  delta decodeRequest decodeRequest.match_1
  iterate 36 rw [dif_neg (by assumption)]

theorem decodeRequest_place_ne (t door mode : Byte) :
    decodeRequest (BitVec.ofNat 8 0x18) [t, door, mode] ≠
      .badRequestCode (BitVec.ofNat 8 0x18) [t, door, mode] := by
  show (if mode = 1 then Instr.placeNext t door else .placeActive t door mode) ≠ _
  split <;> nofun

theorem decodeRequest_restart_ne (kind : Byte) :
    decodeRequest (BitVec.ofNat 8 0x4F) [kind] ≠ .badRequestCode (BitVec.ofNat 8 0x4F) [kind] := by
  show (if kind = 1 then Instr.restartFloor else .restartFull kind) ≠ _
  split <;> nofun

/-- An element of a request's code: no request exactly when its parameters are of another length. The
decoder is evaluated at each code for a list of each length up to 18, the longest request's, and for the
longer ones; PLACE and RESTART name two requests by their last byte. -/
theorem decodeRequest_of_known {code : Byte} {n : Nat} (params : List Byte)
    (h : requestLength code = some n) :
    decodeRequest code params = .badRequestCode code params ↔ params.length ≠ n := by
  unfold requestLength at h
  split at h
  all_goals cases h
  all_goals
    have hc := ‹code.toNat = _›
    have hcode : code = BitVec.ofNat 8 code.toNat := by simp
    rw [hc] at hcode
    subst hcode
    clear hc
    rcases params with _ | ⟨a, _ | ⟨b, _ | ⟨c, _ | ⟨d, _ | ⟨e, _ | ⟨f, _ | ⟨g, _ | ⟨h, _ | ⟨i, _ |
      ⟨j, _ | ⟨k, _ | ⟨l, _ | ⟨m, _ | ⟨n, _ | ⟨o, _ | ⟨p, _ | ⟨q, _ | ⟨r, _ |
      ⟨s, t⟩⟩⟩⟩⟩⟩⟩⟩⟩⟩⟩⟩⟩⟩⟩⟩⟩⟩⟩
    all_goals first
      | exact iff_of_true rfl (by simp)
      | exact iff_of_false (decodeRequest_place_ne _ _ _) (by simp)
      | exact iff_of_false (decodeRequest_restart_ne _) (by simp)
      | exact iff_of_false (fun e => nomatch e) (by simp)

/-- An element is no request exactly when its code is not in the table or its parameters are of another
length (R167). -/
theorem decodeRequest_eq_bad_iff (code : Byte) (params : List Byte) :
    decodeRequest code params = .badRequestCode code params ↔
      requestLength code ≠ some params.length := by
  cases h : requestLength code with
  | none => simpa using decodeRequest_of_unknown params h
  | some n => simpa [eq_comm] using decodeRequest_of_known params h

/-! ## The classification of a received frame -/

section
variable {hub : Byte} {unit : BitVec 4} {p : Port}

/-- A frame with a right check sequence, by its other bytes. -/
theorem classify_sent (data : List Byte) :
    classify hub unit p { bytes := data ++ checkSequence data } =
      if !isErwaz data || data.length < 18 then .forward
      else if byteAt data 14 ≠ hub || byteAt data 15 ≠ unit.zeroExtend 8 then .forward
      else classifyMatching p (byteAt data 16) (sourceOf data) (data.drop 18) := by
  have hl := checkSequence_length data
  unfold classify
  simp only [RawFrame.content_append _ _ hl, RawFrame.checkOk_append _ _ hl, beq_self_eq_true,
    Bool.not_true, Bool.false_eq_true, if_false]

/-- A frame whose last four bytes are not the check sequence of the rest is dropped. -/
theorem classify_wrongCheck {data check : List Byte} (hl : check.length = 4)
    (hc : check ≠ checkSequence data) :
    classify hub unit p { bytes := data ++ check } = .discard := by
  have h : RawFrame.checkOk { bytes := data ++ check } = false := by
    rw [RawFrame.checkOk_append _ _ hl]; simpa using hc
  unfold classify
  simp [h]

/-- The bytes of a frame before its body (11.1). -/
def headerBytes (dest src : Address) (h u kind reserved : Byte) : List Byte :=
  bytesOf dest 6 ++ bytesOf src 6 ++ [0xB5, 0xD2, h, u, kind, reserved]

theorem sourceOf_header (dest src : Address) (h u kind reserved : Byte) (body : List Byte) :
    sourceOf (headerBytes dest src h u kind reserved ++ body) = src := cat6_bytes src

/-- A frame of the Erwaz type with a right check sequence, by the numbers in its header. -/
theorem classify_erwaz (dest src : Address) (h u kind reserved : Byte) (body : List Byte) :
    let data := headerBytes dest src h u kind reserved ++ body
    classify hub unit p { bytes := data ++ checkSequence data } =
      if h ≠ hub ∨ u ≠ unit.zeroExtend 8 then .forward else classifyMatching p kind src body := by
  intro data
  have hl : data.length = 18 + body.length := by
    simp only [data, headerBytes, bytesOf, List.length_append, List.length_cons, List.length_nil]
  have he : isErwaz data = true := by
    have : 14 ≤ data.length := by omega
    simp [isErwaz, this]
    exact ⟨rfl, rfl⟩
  have h18 : ¬data.length < 18 := by omega
  have hd : data.drop 18 = body := rfl
  rw [classify_sent, he, sourceOf_header, hd]
  show (if (_ || decide (data.length < 18)) = true then _ else if (decide (h ≠ hub) || decide (u ≠ _)) = true
    then _ else classifyMatching p kind src body) = _
  simp [h18]

/-- A frame that is not of the Erwaz type or ends before the 18 bytes of the header. -/
theorem classify_foreign {data : List Byte}
    (h : data[12]? ≠ some 0xB5 ∨ data[13]? ≠ some 0xD2 ∨ data.length < 18) :
    classify hub unit p { bytes := data ++ checkSequence data } = .forward := by
  rw [classify_sent, if_pos]
  by_cases hl : data.length < 18
  · simp [hl]
  · have h12 : data[12]? = some (byteAt data 12) := by
      simp [byteAt, List.getElem?_eq_getElem (show 12 < data.length by omega)]
    have h13 : data[13]? = some (byteAt data 13) := by
      simp [byteAt, List.getElem?_eq_getElem (show 13 < data.length by omega)]
    have hne : byteAt data 12 ≠ 0xB5 ∨ byteAt data 13 ≠ 0xD2 := by
      simpa [h12, h13, hl] using h
    have : isErwaz data = false := by
      simp only [isErwaz, erwazType, Bool.and_eq_false_iff, beq_eq_false_iff_ne]
      exact hne.imp .inr id
    simp [this]

end

/-- Settles O4: the classification, by the check sequence, the type, the straps, the port and the kind. -/
theorem framesAreTakenByPortAndKind : Obligations.FramesAreTakenByPortAndKind := by
  refine ⟨fun hub h u kind reserved unit dest src body p => ?_, fun p frame s => rfl⟩
  intro sent data frame
  have hframe : classify hub unit p frame = _ := classify_erwaz dest src h u kind reserved body
  refine ⟨fun hn => by rw [hframe, if_pos hn], fun hh hu => ?_, fun any =>
    ⟨fun check hl hc => classify_wrongCheck hl hc, classify_foreign⟩⟩
  have hm : classify hub unit p frame = classifyMatching p kind src body := by
    rw [hframe, if_neg (by simp [hh, hu])]
  rw [hm]
  refine ⟨?_, ?_, ?_, ?_, ?_, ?_⟩
  · rintro rfl rfl hl
    exact if_neg (by omega)
  · rintro rfl rfl hl
    exact if_pos hl
  · rintro rfl rfl hl c hc
    show (if body.length < 4 then FrameClass.discard else _) = _
    rw [if_neg (by omega), hc]
  · rintro rfl rfl hl
    show (if body.length < 4 then FrameClass.discard else _) = _
    split
    · rfl
    · rw [hl.resolve_left ‹_›]
  · rintro rfl rfl
    rfl
  · intro hf hy
    have hk (n : Nat) (hn : n < 256) : kind.toNat = n ↔ kind = BitVec.ofNat 8 n :=
      ⟨fun h => by rw [← h]; simp, fun h => by rw [h, BitVec.toNat_ofNat]; omega⟩
    unfold classifyMatching
    split
    · exact absurd ⟨rfl, .inl ((hk 1 (by omega)).1 ‹_›)⟩ hf
    · exact absurd ⟨rfl, .inr ((hk 2 (by omega)).1 ‹_›)⟩ hf
    · exact absurd ⟨rfl, (hk 3 (by omega)).1 ‹_›⟩ hy
    · rfl

end Sys2Proof.Machine

/-! Ports, resets and the management unit (chapter 10): forwarding, transmission, restarts, management frames and what a request is given. -/

namespace Sys2Proof.Machine

variable {s t : State}

/-! ## Forwarding (R161, R162) -/

theorem portOther_eq {a b : Port} (h : a = .floor ↔ b = .yard) : portOther a = b := by
  cases a <;> cases b <;> simp [portOther] at h ⊢

theorem State.placePass_of_room {b : Port} (bs : List Byte) (h : (s.port b).pass.length < 64) :
    s.placePass b bs = s.setPort b
      ({ s.port b with pass := (s.port b).pass ++ [bs] } : PortState).begin := by
  obtain ⟨hl, -⟩ | ⟨-, e⟩ := s.placePass_cases b bs
  · exact absurd h (Nat.not_lt.2 hl)
  · exact e

theorem State.placePass_of_full {b : Port} (bs : List Byte) (h : 64 ≤ (s.port b).pass.length) :
    s.placePass b bs = s := by
  obtain ⟨-, e⟩ | ⟨hl, -⟩ := s.placePass_cases b bs
  · exact e
  · exact absurd h (Nat.not_le.2 hl)

/-- The classification of a frame that carries other numbers reads nothing of its destination
address. -/
theorem classify_forward_iff {hub : Byte} {unit : BitVec 4} {p : Port} (data : List Byte) :
    (!isErwaz data || decide (data.length < 18)) = true ∨
      (decide (byteAt data 14 ≠ hub) || decide (byteAt data 15 ≠ unit.zeroExtend 8)) = true ↔
    classify hub unit p { bytes := data ++ checkSequence data } = .forward := by
  rw [classify_sent]
  split
  · exact iff_of_true (.inl ‹_›) rfl
  · split
    · exact iff_of_true (.inr ‹_›) rfl
    · have hm : classifyMatching p (byteAt data 16) (sourceOf data) (data.drop 18) ≠ .forward := by
        unfold classifyMatching
        repeat' split
        all_goals nofun
      exact iff_of_false (not_or.2 ⟨‹_›, ‹_›⟩) hm

theorem byteAt_otherDestination {d data : List Byte} (hd : d.length = 6) (i : Nat) (hi : 6 ≤ i) :
    byteAt (d ++ data.drop 6) i = byteAt data i := by
  simp [byteAt, List.getElem?_append_right (show d.length ≤ i by omega), hd,
    show 6 + (i - 6) = i by omega]

/-- A forwarded frame is forwarded whatever its destination address. -/
theorem classify_otherDestination {hub : Byte} {unit : BitVec 4} {p : Port} {d data : List Byte}
    (hd : d.length = 6) (hl : 6 ≤ data.length)
    (h : classify hub unit p { bytes := data ++ checkSequence data } = .forward) :
    classify hub unit p { bytes := (d ++ data.drop 6) ++ checkSequence (d ++ data.drop 6) } =
      .forward := by
  rw [← classify_forward_iff] at h ⊢
  have hlen : (d ++ data.drop 6).length = data.length := by simp [hd]; omega
  have he : isErwaz (d ++ data.drop 6) = isErwaz data := by
    simp only [isErwaz, hlen, byteAt_otherDestination hd _ (show 6 ≤ 12 by omega),
      byteAt_otherDestination hd _ (show 6 ≤ 13 by omega)]
  rwa [he, hlen, byteAt_otherDestination hd _ (by omega), byteAt_otherDestination hd _ (by omega)]

/-- Settles O5: the classification, and the room in the other port's pass-through queue. -/
theorem forwardedFrameJoinsTheOtherPort : Obligations.ForwardedFrameJoinsTheOtherPort := by
  intro s frame a b hab hc
  have hexec : exec (.forwardFrame a frame) s = .next (s.placePass b frame.bytes) := by
    rw [exec_forwardFrame, if_pos hc, portOther_eq hab]
  refine ⟨fun h => ?_, fun h => ?_, fun h => ?_, fun d data hb hd hl => ?_⟩
  · rw [hexec, State.placePass_of_room _ h]
  · rw [hexec, State.placePass_of_full _ h]
  · refine PortState.begin_of_sending _ fun hn => ?_
    rw [Option.isSome_iff_ne_none] at h
    exact h hn
  · refine classify_otherDestination hd hl ?_
    rw [← hb]
    exact hc

/-! ## Transmission (R163, R164) -/

theorem State.placeOwn_of_full {p : Port} (d : Address) (b : OwnBody)
    (h : 256 ≤ (s.port p).own.length) : s.placeOwn p d b = s := by
  obtain ⟨-, e⟩ | ⟨hl, -⟩ := s.placeOwn_cases p d b
  · exact e
  · exact absurd h (Nat.not_le.2 hl)

theorem State.placeOwn_of_room {p : Port} (d : Address) (b : OwnBody)
    (h : (s.port p).own.length < 256) : s.placeOwn p d b =
      s.setPort p ({ s.port p with own := (s.port p).own ++ [s.ownFrame d b] } : PortState).begin := by
  obtain ⟨hl, -⟩ | ⟨-, e⟩ := s.placeOwn_cases p d b
  · exact absurd h (Nat.not_lt.2 hl)
  · exact e

/-- With no restart pending on YARD the end of a transmission begins the next one. -/
theorem exec_transmissionEnd_of_none {p : Port} (hub : Byte) (unit : BitVec 4)
    (h : p = .floor ∨ s.restart = none) :
    exec (.transmissionEnd p hub unit) s = .next (s.endTransmission p) := by
  rw [exec_transmissionEnd, execTransmissionEnd.eq_def]
  cases p with
  | floor => rfl
  | yard => rw [h.resolve_left nofun]

/-- An own frame's bytes before the check sequence, with their padding to Ethernet's minimum. -/
theorem OwnFrame.bytes_eq (f : OwnFrame) : ∃ padding : List Byte,
    f.bytes = bytesOf f.dest 6 ++ [0x02, 0x4E, 0x5A, 0x00, f.hub, f.unit.zeroExtend 8] ++
      [0xB5, 0xD2, f.hub, f.unit.zeroExtend 8, f.body.kind, 0] ++ f.body.bytes ++ padding ∧
    (∀ b ∈ padding, b = 0) ∧ (padding ≠ [] → f.bytes.length = 60) ∧ 60 ≤ f.bytes.length := by
  unfold OwnFrame.bytes
  dsimp only
  generalize hbs : bytesOf f.dest 6 ++ ownAddress f.hub f.unit ++ [erwazType.1, erwazType.2] ++
    [f.hub, BitVec.zeroExtend 8 f.unit, f.body.kind, 0] ++ f.body.bytes = bs
  refine ⟨List.replicate (ethernetMinimum - bs.length) 0, ?_, fun b hb => List.eq_of_mem_replicate hb,
    fun hp => ?_, ?_⟩
  · subst hbs; simp [ownAddress, erwazType]
  · have : ethernetMinimum - bs.length ≠ 0 := by simpa [List.replicate_eq_nil_iff] using hp
    simp only [List.length_append, List.length_replicate, ethernetMinimum] at *
    omega
  · simp only [List.length_append, List.length_replicate, ethernetMinimum]
    omega

/-- Settles O6: the room in the own-frame queue, and the order of the queues at a transmission's end. -/
theorem portTransmitsOwnFramesFirst : Obligations.PortTransmitsOwnFramesFirst := by
  refine ⟨fun s p dest body => ⟨State.placeOwn_of_full dest body, fun hl hs => ?_, fun hp => ?_⟩,
    fun s p hub unit h => ?_, fun f => ?_, fun bs => rfl⟩
  · rw [State.placeOwn_of_room dest body hl, PortState.begin_of_sending]
    · rfl
    · exact Option.isSome_iff_ne_none.1 hs
  · rw [State.placeOwn_of_room dest body (by rw [hp]; decide), hp]
    rfl
  · rw [exec_transmissionEnd_of_none hub unit h]
    refine ⟨fun f fs ho => ?_, fun b bs ho hp => ?_, fun ho hp => ?_⟩
    · simp only [State.endTransmission, PortState.begin, ho]
    · simp only [State.endTransmission, PortState.begin, ho, hp]
    · simp only [State.endTransmission, PortState.begin, ho, hp]
  · obtain ⟨padding, e, hz, hm, h60⟩ := f.bytes_eq
    refine ⟨padding, ?_⟩
    dsimp only
    rw [← e]
    refine ⟨rfl, hz, hm, h60, ?_⟩
    exact (RawFrame.checkOk_append _ _ (checkSequence_length _)).trans (beq_self_eq_true _)

/-! ## Resets (R165, R173) -/

theorem getD_replicate {α : Type} {n : Nat} (x : α) (i : Nat) : (Vector.replicate n x).getD i x = x := by
  simp only [Vector.getD, Vector.toArray_replicate, Array.getD_eq_getD_getElem?, Array.getElem?_replicate]
  split <;> rfl

/-- A value read from a vector that holds it at every place, or past its end. -/
theorem nth_replicate {α : Type} {n : Nat} (x : α) (i : Nat) : nth (Vector.replicate n x) i x = x := by
  unfold nth
  split
  · rfl
  · exact getD_replicate ..

/-- Settles O7: the reset values, field by field. -/
theorem pinResetLeavesTheResetValues : Obligations.PinResetLeavesTheResetValues := by
  refine ⟨fun _ _ _ => rfl, rfl, rfl, rfl, rfl, rfl, rfl, rfl, rfl, fun d => ?_, fun q => ?_, fun m => ?_, rfl,
    rfl, rfl, rfl, fun q => ?_, rfl, fun c => ?_, rfl, rfl, rfl, rfl, rfl, rfl, rfl, rfl, rfl⟩
  · exact nth_replicate ..
  · exact getD_replicate ..
  · exact nth_replicate ..
  · exact getD_replicate ..
  · exact nth_replicate ..

/-- Settles O8: the waiting reply is begun, then the restart is taken by its kind. -/
theorem restartIsTakenWhenItsReplyHasEnded : Obligations.RestartIsTakenWhenItsReplyHasEnded := by
  intro s r hub unit hr
  have hexec : exec (.transmissionEnd .yard hub unit) s = match r.reply with
      | none => .next (s.executeRestart r.kind hub unit)
      | some x => .next { s with
          yard := { s.yard with sending := some (.own x) }
          restart := some { r with reply := none, begun := true } } := by
    rw [exec_transmissionEnd]
    unfold execTransmissionEnd
    rw [hr] <;> rfl
  rw [hexec]
  refine ⟨fun x hx => by rw [hx], fun hn hk => ?_, fun hn hk => ?_⟩
  · rw [hn, hk]; rfl
  · rw [hn, hk]; rfl

/-! ## While a restart is pending (R173) -/

theorem takeScan_of_restart {src : Address} {kind : Byte} {scan : ScanFields} (h : s.restart.isSome) :
    takeScan src kind scan s = .next s := if_pos h

theorem takeTerminal_of_restart {mover : Byte} {rule : Nat → State → State} (h : s.restart.isSome) :
    takeTerminal mover rule s = .next s := if_pos (by rw [State.restartPending, h, Bool.true_or])

theorem takeRequest_of_restart {c : Instr} {rule : State → Taken} (h : s.restart.isSome) :
    takeRequest c rule s = .next s := if_pos h

theorem takeRestart_of_restart {c : Instr} {ok : Bool} {k : RestartKind} (h : s.restart.isSome) :
    takeRestart c ok k s = .next s := if_pos h

theorem execMgmtFrame_of_restart {src : Address} {body : List Byte} (h : s.restart.isSome) :
    execMgmtFrame src body s = .next s := if_pos h

/-- Settles O9: the commands that do not go on are scans, terminal frames, management frames and
requests, and each of these is taken only with no restart pending. -/
theorem pendingRestartDiscardsFramesAndRequests :
    Obligations.PendingRestartDiscardsFramesAndRequests := by
  intro s c h hc
  cases c with
  | intakeScan => rw [exec_intakeScan]; exact takeScan_of_restart h
  | laneScan => rw [exec_laneScan]; exact takeScan_of_restart h
  | loadScan => rw [exec_loadScan]; exact takeScan_of_restart h
  | reworkScan => rw [exec_reworkScan]; exact takeScan_of_restart h
  | badPlaceKindScan => rw [exec_badPlaceKindScan]; exact takeScan_of_restart h
  | signOn => rw [exec_signOn]; exact takeTerminal_of_restart h
  | signOff => rw [exec_signOff]; exact takeTerminal_of_restart h
  | accept => rw [exec_accept]; exact takeTerminal_of_restart h
  | decline => rw [exec_decline]; exact takeTerminal_of_restart h
  | abandon => rw [exec_abandon]; exact takeTerminal_of_restart h
  | acceptTimeout => cases hc
  | doneTimeout => cases hc
  | clockAdvance => cases hc
  | closeTimeReached => cases hc
  | cutoffReached => cases hc
  | forwardFrame => cases hc
  | discardFrame => cases hc
  | transmissionEnd => cases hc
  | pinReset => cases hc
  | mgmtFrame => rw [exec_mgmtFrame]; exact execMgmtFrame_of_restart h
  | badRequestCode => rw [exec_badRequestCode]; exact takeRequest_of_restart h
  | readPallet => rw [exec_readPallet]; exact takeRequest_of_restart h
  | probe => rw [exec_probe]; exact takeRequest_of_restart h
  | putZone => rw [exec_putZone]; exact takeRequest_of_restart h
  | dropZone => rw [exec_dropZone]; exact takeRequest_of_restart h
  | putDepotRow => rw [exec_putDepotRow]; exact takeRequest_of_restart h
  | dropDepotRow => rw [exec_dropDepotRow]; exact takeRequest_of_restart h
  | copyBank => rw [exec_copyBank]; exact takeRequest_of_restart h
  | clearBank => rw [exec_clearBank]; exact takeRequest_of_restart h
  | switchBank => rw [exec_switchBank]; exact takeRequest_of_restart h
  | readZone => rw [exec_readZone]; exact takeRequest_of_restart h
  | readDepotRow => rw [exec_readDepotRow]; exact takeRequest_of_restart h
  | startShift => rw [exec_startShift]; exact takeRequest_of_restart h
  | stopShift => rw [exec_stopShift]; exact takeRequest_of_restart h
  | readClock => rw [exec_readClock]; exact takeRequest_of_restart h
  | putTrailerClass => rw [exec_putTrailerClass]; exact takeRequest_of_restart h
  | readTrailerClass => rw [exec_readTrailerClass]; exact takeRequest_of_restart h
  | putTrunk => rw [exec_putTrunk]; exact takeRequest_of_restart h
  | setCutoff => rw [exec_setCutoff]; exact takeRequest_of_restart h
  | dropTrunk => rw [exec_dropTrunk]; exact takeRequest_of_restart h
  | placeActive => rw [exec_placeActive]; exact takeRequest_of_restart h
  | placeNext => rw [exec_placeNext]; exact takeRequest_of_restart h
  | depart => rw [exec_depart]; exact takeRequest_of_restart h
  | setDoor => rw [exec_setDoor]; exact takeRequest_of_restart h
  | readTrunk => rw [exec_readTrunk]; exact takeRequest_of_restart h
  | readDoor => rw [exec_readDoor]; exact takeRequest_of_restart h
  | readMover => rw [exec_readMover]; exact takeRequest_of_restart h
  | forceRelease => rw [exec_forceRelease]; exact takeRequest_of_restart h
  | removePallet => rw [exec_removePallet]; exact takeRequest_of_restart h
  | clearNotice => rw [exec_clearNotice]; exact takeRequest_of_restart h
  | testNotice => rw [exec_testNotice]; exact takeRequest_of_restart h
  | setNotice => rw [exec_setNotice]; exact takeRequest_of_restart h
  | setChannel => rw [exec_setChannel]; exact takeRequest_of_restart h
  | readNotices => rw [exec_readNotices]; exact takeRequest_of_restart h
  | setLimits => rw [exec_setLimits]; exact takeRequest_of_restart h
  | setOutputs => rw [exec_setOutputs]; exact takeRequest_of_restart h
  | readSettings => rw [exec_readSettings]; exact takeRequest_of_restart h
  | restartFull => rw [exec_restartFull]; exact takeRestart_of_restart h
  | restartFloor => rw [exec_restartFloor]; exact takeRestart_of_restart h

/-! ## Management frames (R166) -/

theorem bodyElements_of_no_tag {body : List Byte} (h : bodyTag body = none) :
    bodyElements body = none := by
  match body, h with
  | [], _ => rfl
  | [_], _ => rfl

/-- A management frame with no restart pending. -/
theorem exec_mgmtFrame_of_none (src : Address) (body : List Byte) (h : s.restart = none) :
    exec (.mgmtFrame src body) s = match bodyElements body with
      | none => .next (s.refuseFrame src body)
      | some (stop, left) =>
          if 4 ≤ s.frames.length then .next s
          else .next { s with frames := s.frames ++
            [{ source := src, tag := (bodyTag body).getD 0, stop := stop, left := left }] } := by
  rw [exec_mgmtFrame, execMgmtFrame, State.restartPending, h]
  rfl

/-- Settles O10: by what the body's elements give and the number of frames in progress. -/
theorem managementFrameIsTakenRefusedOrDiscarded :
    Obligations.ManagementFrameIsTakenRefusedOrDiscarded := by
  intro s src body h
  rw [exec_mgmtFrame_of_none src body h]
  refine ⟨fun tag ht he => ?_, fun ht => ?_, fun tag stop es ht he hl => ?_, fun stop es he hl => ?_⟩
  · rw [he]
    simp only [State.refuseFrame, ht]
  · rw [bodyElements_of_no_tag ht]
    simp only [State.refuseFrame, ht]
  · rw [he, ht]
    exact if_neg (Nat.not_le.2 hl)
  · rw [he]
    exact if_pos hl

/-! ## Results (R167, R168) -/

/-- The frame at the turn leaves: the turn is then on the frame that followed it, or on the
earliest. -/
theorem State.dropDueFrame_eq {f : MgmtFrame} (h : s.dueFrame = some f) :
    s.dropDueFrame = { s with
      frames := s.frames.eraseIdx s.turn
      turn := if s.turn + 1 < s.frames.length then s.turn else 0 } := by
  have hlt := (s.turn_lt_of_dueFrame h).1
  have hl : (s.frames.eraseIdx s.turn).length = s.frames.length - 1 := List.length_eraseIdx_of_lt hlt
  have hiff : s.turn < s.frames.length - 1 ↔ s.turn + 1 < s.frames.length := by omega
  unfold State.dropDueFrame
  simp only [hl, hiff]

/-- A frame whose list goes on after a result. -/
theorem MgmtFrame.give_of_goesOn {f : MgmtFrame} {r : Result} {x : Option Record}
    (h : r = .done ∨ f.stop = false) : f.give r x = { f with
      results := f.results ++ [r]
      records := f.records ++ (x.map fun x => (f.results.length + 1, x)).toList
      left := f.left.drop 1 } :=
  if_neg (by rcases h with rfl | h <;> simp [*])

/-- A frame whose list ends with a refusal. -/
theorem MgmtFrame.give_of_stops {f : MgmtFrame} {r : Result} {x : Option Record} (h : r ≠ .done)
    (hs : f.stop = true) : f.give r x = { f with
      results := f.results ++ [r] ++ List.replicate (f.left.drop 1).length .notRun
      records := f.records ++ (x.map fun x => (f.results.length + 1, x)).toList
      left := [] } :=
  if_pos (by simp [h, hs])

theorem MgmtFrame.give_source (f : MgmtFrame) (r : Result) (x : Option Record) :
    (f.give r x).source = f.source := by
  unfold MgmtFrame.give
  dsimp only
  split <;> rfl

/-- The state after a result, by what the due frame becomes. -/
theorem State.giveResult_due {r : Result} {x : Option Record} {f : MgmtFrame}
    (h : s.dueFrame = some f) : s.giveResult true r x =
      if (f.give r x).left = [] then
        { s with
          answer := some { result := r, record := x }
          frames := s.frames.eraseIdx s.turn
          turn := if s.turn + 1 < s.frames.length then s.turn else 0 }.placeOwn .yard f.source
            (.reply (f.give r x).reply)
      else { s with
        answer := some { result := r, record := x }
        frames := s.frames.set s.turn (f.give r x)
        turn := turnAfter s.turn s.frames.length } := by
  have h' : State.dueFrame { s with answer := some { result := r, record := x } } = some f := h
  unfold State.giveResult
  simp only [h', State.dropDueFrame_eq h', MgmtFrame.give_source, List.isEmpty_iff]

/-- Settles O11: by whether the frame's list ends with the result, and whether a request is left. -/
theorem resultIsAccountedToTheDueFrame : Obligations.ResultIsAccountedToTheDueFrame := by
  intro s r x
  refine ⟨rfl, fun f hf => ?_⟩
  dsimp only
  rw [State.giveResult_due hf]
  refine ⟨fun hr hs => ?_, fun hg hl => ?_, fun hg hl => ?_⟩
  · rw [MgmtFrame.give_of_stops hr hs]
    rfl
  · rw [MgmtFrame.give_of_goesOn hg, if_pos hl]
    rfl
  · rw [MgmtFrame.give_of_goesOn hg, if_neg hl]
    rfl

/-- Whether a record of `n` bytes fits the due frame's reply (R168). -/
theorem State.recordFits_due {f : MgmtFrame} (h : s.dueFrame = some f) (n : Nat) :
    s.recordFits true n = true ↔ (f.records.map fun x => x.2.size + 3).sum + n + 3 ≤ 1400 := by
  unfold State.recordFits
  rw [h]
  exact decide_eq_true_iff

/-- A request whose record does not fit its reply. -/
theorem takeRequest_noRoom {c : Instr} {rule : State → Taken} {t : State} {x : Record}
    (h : s.restart = none) (hr : rule s = .done t (some x)) (hf : s.recordFits (s.isDue c) x.size = false) :
    takeRequest c rule s = .next (s.giveResult (s.isDue c) .badRequest none) := by
  unfold takeRequest
  simp [State.restartPending, h, hr, hf]

/-- A release report that does not fit its reply (R132; log 26). -/
theorem takeRequest_noRoomForRelease {c : Instr} {rule : State → Taken} {e : Ev} (h : s.restart = none)
    (hr : rule s = .release e) (hf : s.recordFits (s.isDue c) 16 = false) :
    takeRequest c rule s = .next (s.giveResult (s.isDue c) .badRequest none) := by
  unfold takeRequest
  simp [State.restartPending, h, hr, Record.size, hf]

/-- The event of a FORCE_RELEASE that is not refused (R132). -/
def State.forcedWalk (s : State) (d t : Nat) (r : Trunk) : Ev :=
  { s := s
    running := [t]
    work := .walk { trunk := t, door := d, forced := true, start := r.loadingDrop } :: closing }

theorem forceRelease_walks {d t : Nat} {r : Trunk} (hd : isDoorNumber d = true)
    (ha : (s.door d).active = some t) (ht : s.trunk? t = some r) (hp : r.phase ≠ .due)
    (hi : r.inFlight < (s.door d).depth) : forceRelease d s = .release (s.forcedWalk d t r) := by
  unfold forceRelease
  simp [hd, ha, ht, hp, Nat.not_le.2 hi, State.forcedWalk]

/-- Settles O12: a refusal alone, decoded exactly from the elements that no catalogue row fits. -/
theorem badRequestHasNoOtherEffect : Obligations.BadRequestHasNoOtherEffect := by
  refine ⟨fun code params => ⟨fun s h => ?_, decodeRequest_eq_bad_iff code params⟩, fun s f h hf => ?_⟩
  · rw [exec_badRequestCode, takeRequest_refused h rfl]
  refine ⟨fun hd => ⟨fun hl => ?_, fun hl => ?_⟩, fun door t r hd hn ha ht hp hi hl => ?_⟩
  · rw [exec_readNotices, takeRequest_noRoom h rfl, hd]
    rw [hd, Bool.eq_false_iff]
    exact fun hfit => absurd ((State.recordFits_due hf _).1 hfit) (Nat.not_le.2 hl)
  · rw [exec_readNotices, takeRequest_record ⟨h, ?_⟩ rfl, hd]
    rw [hd]
    exact (State.recordFits_due hf _).2 hl
  · rw [exec_forceRelease, takeRequest_noRoomForRelease h (forceRelease_walks hn ha ht hp hi), hd]
    rw [hd, Bool.eq_false_iff]
    exact fun hfit => absurd ((State.recordFits_due hf _).1 hfit) (Nat.not_le.2 hl)

/-! ## RESTART (R173) -/

theorem takeRestart_taken {c : Instr} {k : RestartKind} (h : s.restart = none) :
    takeRestart c true k s = .next (s.giveRestart (s.isDue c) k) := by
  unfold takeRestart; simp [State.restartPending, h]

theorem takeRestart_refused {c : Instr} {k : RestartKind} (h : s.restart = none) :
    takeRestart c false k s = .next (s.giveResult (s.isDue c) .outOfRange none) := by
  unfold takeRestart; simp [State.restartPending, h]

/-- The reply of a frame whose list a RESTART ends. -/
theorem MgmtFrame.reply_endList (f : MgmtFrame) : ((f.give .done none).endList).reply =
    { tag := f.tag, status := .done, records := f.records
      results := f.results ++ [.done] ++ List.replicate (f.left.length - 1) .notRun } := by
  rw [MgmtFrame.give_of_goesOn (.inl rfl)]
  simp [MgmtFrame.endList, MgmtFrame.reply]

/-- A RESTART that the due frame carries. -/
theorem State.giveRestart_due {k : RestartKind} {f : MgmtFrame} (h : s.dueFrame = some f) :
    s.giveRestart true k =
      let x := s.ownFrame f.source (.reply ((f.give .done none).endList).reply)
      let gone : State := { s with
        answer := some { result := .done, record := none }
        frames := s.frames.eraseIdx s.turn
        turn := if s.turn + 1 < s.frames.length then s.turn else 0 }
      if s.yard.sending.isNone then { gone with
        yard := { s.yard with sending := some (.own x) }
        restart := some { kind := k, reply := none, begun := true } }
      else { gone with restart := some { kind := k, reply := some x, begun := false } } := by
  have h' : State.dueFrame { s with answer := some { result := .done, record := none } } = some f := h
  have hs : ((f.give .done none).endList).source = f.source := f.give_source _ _
  unfold State.giveRestart
  simp only [h', State.dropDueFrame_eq h', hs]
  rfl

/-- Settles O54: by the kind byte, and by whether a frame carries the request. -/
theorem restartEndsItsListAndWaitsForItsReply : Obligations.RestartEndsItsListAndWaitsForItsReply := by
  intro s kind h hk1
  refine ⟨fun hk0 => ?_, fun k => ?_⟩
  · rw [exec_restartFull, decide_eq_false hk0, takeRestart_refused h]
  · intro c s'
    have hexec : exec c s = .next (s.giveRestart (s.isDue c) k) := by
      cases k with
      | full => exact takeRestart_taken h
      | floor => exact takeRestart_taken h
    rw [hexec]
    refine ⟨fun hd => by rw [hd]; rfl, fun f hd hf => ?_⟩
    rw [hd, State.giveRestart_due hf, MgmtFrame.reply_endList]
    exact ⟨fun hy => by rw [hy]; rfl, fun hy => by
      rw [if_neg (by simpa [Option.isNone_iff_eq_none, Option.isSome_iff_ne_none] using hy)]; rfl⟩

end Sys2Proof.Machine

/-! The route unit's edits and reads, and the requests that read or write one record at once (chapters 2, 3, 9 and 10.4). -/

namespace Sys2Proof.Machine

variable {s t : State}

theorem isTrunkNumber_iff (k : Nat) : isTrunkNumber k = true ↔ 1 ≤ k ∧ k ≤ 128 := by
  simp [isTrunkNumber]

/-! ## Edits of the standby bank (R30 to R32) -/

section
variable {first : ZoneCode} {f : Nat}

theorem dropZone_notDecimal (h : zoneValue first = none) :
    dropZone first s = .refused .outOfRange := by
  unfold dropZone; rw [h]

theorem dropZone_absent (h : zoneValue first = some f) (hz : ∀ e ∈ s.standby.zones, e.first ≠ f) :
    dropZone first s = .refused .noSuch := by
  unfold dropZone; rw [h]
  exact if_neg (by simpa using hz)

theorem dropZone_present (h : zoneValue first = some f) (hz : ∃ e ∈ s.standby.zones, e.first = f) :
    dropZone first s = .done (s.setStandby { s.standby with
      zones := s.standby.zones.filter fun e => e.first ≠ f }) none := by
  unfold dropZone; rw [h]
  exact if_pos (by simpa using hz)

end

section
variable {depot cls count : Byte} {ts : List Byte}

theorem isClass_iff (c : Byte) : isClass c = true ↔ c.toNat ≤ 3 := by
  simp [isClass]

theorem putDepotRow_badCount (h : count.toNat < 1 ∨ 4 < count.toNat) :
    putDepotRow depot cls count ts s = .refused .badRequest := if_pos (by simpa using h)

theorem putDepotRow_outOfRange (h1 : 1 ≤ count.toNat) (h4 : count.toNat ≤ 4)
    (h : isDepot depot.toNat = false ∨ 3 < cls.toNat ∨
      (∃ t ∈ (ts.take count.toNat).map BitVec.toNat, isTrunkNumber t = false) ∨
      ¬((ts.take count.toNat).map BitVec.toNat).Nodup) :
    putDepotRow depot cls count ts s = .refused .outOfRange := by
  have hall (xs : List Nat) : (∃ t ∈ xs, isTrunkNumber t = false) ↔ xs.all isTrunkNumber = false := by
    simp
  unfold putDepotRow
  rw [if_neg (by simp; omega)]
  refine if_pos ?_
  rw [hall] at h
  simp only [Bool.or_eq_true, Bool.not_eq_true', decide_eq_false_iff_not, or_assoc]
  refine h.imp_right (Or.imp_left fun hc => ?_)
  rw [Bool.eq_false_iff, Ne, isClass_iff]
  omega

theorem putDepotRow_inRange (h1 : 1 ≤ count.toNat) (h4 : count.toNat ≤ 4)
    (hd : isDepot depot.toNat = true) (hc : cls.toNat ≤ 3)
    (ht : ∀ t ∈ (ts.take count.toNat).map BitVec.toNat, isTrunkNumber t = true)
    (hn : ((ts.take count.toNat).map BitVec.toNat).Nodup) :
    putDepotRow depot cls count ts s = .done (s.setStandby { s.standby with
      rows := s.standby.rows.put (rowSlot cls.toNat depot.toNat)
        ((ts.take count.toNat).map BitVec.toNat) }) none := by
  unfold putDepotRow
  rw [if_neg (by simp; omega)]
  exact if_neg (by rw [hd, (isClass_iff cls).2 hc, List.all_eq_true.2 ht, decide_eq_true hn]; simp)

theorem dropDepotRow_outOfRange (h : isDepot depot.toNat = false ∨ 3 < cls.toNat) :
    dropDepotRow depot cls s = .refused .outOfRange := by
  refine if_pos ?_
  simp only [Bool.or_eq_true, Bool.not_eq_true']
  refine h.imp_right fun hc => ?_
  rw [Bool.eq_false_iff, Ne, isClass_iff]
  omega

theorem dropDepotRow_inRange (hd : isDepot depot.toNat = true) (hc : cls.toNat ≤ 3) :
    dropDepotRow depot cls s =
      if (s.standby.rows.get? (rowSlot cls.toNat depot.toNat)).isSome then
        .done (s.setStandby { s.standby with
          rows := s.standby.rows.erase (rowSlot cls.toNat depot.toNat) }) none
      else .refused .noSuch :=
  if_neg (by simp [hd, (isClass_iff cls).2 hc])

end

/-- A read after a removal in a table of the one form. -/
theorem Table.get?_erase {α : Type} {tb : Table α} (h : tb.wf = true) (k j : Nat) :
    (tb.erase k).get? j = if j = k then none else tb.get? j := by
  split
  · rename_i e
    rw [e, Table.get?_erase_self h]
  · exact Table.get?_erase_ne tb ‹_›

/-- Settles O33: the tests in order, and the table rules for the slot written. -/
theorem dropZoneAndDepotRowsEditTheStandbyBank : Obligations.DropZoneAndDepotRowsEditTheStandbyBank := by
  intro s first depot cls count t1 t2 t3 t4 h hw refuse write drop put clear row slot b
  refine ⟨fun hf => ?_, fun f hf => ⟨fun hz => ?_, fun hz => ?_⟩, fun hc => ?_, fun h1 h4 => ⟨fun hr => ?_,
    fun hd hc ht hn => ?_⟩, fun hr => ?_, fun hd hc => ⟨fun hn => ?_, fun hs => ?_⟩,
    Table.get?_put b.rows slot row, Table.get?_erase hw slot⟩
  · exact (exec_dropZone ..).trans (takeRequest_refused h (dropZone_notDecimal hf))
  · exact (exec_dropZone ..).trans (takeRequest_refused h (dropZone_absent hf hz))
  · exact (exec_dropZone ..).trans (takeRequest_done h (dropZone_present hf hz))
  · exact (exec_putDepotRow ..).trans (takeRequest_refused h (putDepotRow_badCount hc))
  · exact (exec_putDepotRow ..).trans (takeRequest_refused h (putDepotRow_outOfRange h1 h4 hr))
  · exact (exec_putDepotRow ..).trans (takeRequest_done h (putDepotRow_inRange h1 h4 hd hc ht hn))
  · exact (exec_dropDepotRow ..).trans (takeRequest_refused h (dropDepotRow_outOfRange hr))
  · have hn : (s.standby.rows.get? (rowSlot cls.toNat depot.toNat)).isSome = false := by
      rw [Option.isSome_eq_false_iff, Option.isNone_iff_eq_none]; exact hn
    exact (exec_dropDepotRow ..).trans (takeRequest_refused h
      ((dropDepotRow_inRange hd hc).trans (by rw [hn]; rfl)))
  · exact (exec_dropDepotRow ..).trans (takeRequest_done h
      ((dropDepotRow_inRange hd hc).trans (if_pos hs)))

/-! ## Bank reads (R36, R37) -/

theorem State.roleBank_eq (s : State) {role : Byte} (h : role.toNat ≤ 1) :
    s.roleBank role = some (if role = 0 then s.active else s.active.other) := by
  have h01 : role.toNat = 0 ∨ role.toNat = 1 := by omega
  unfold State.roleBank
  rcases h01 with h0 | h1
  · have : role = 0 := BitVec.eq_of_toNat_eq h0
    rw [h0, if_pos this]
    rfl
  · have : role ≠ 0 := fun e => by rw [e] at h1; cases h1
    rw [h1, if_neg this]
    rfl

theorem State.roleBank_none (s : State) {role : Byte} (h : 1 < role.toNat) : s.roleBank role = none := by
  unfold State.roleBank
  split
  · omega
  · omega
  · rfl

theorem readZone_outOfRange {role : Byte} {zone : ZoneCode} (h : 1 < role.toNat ∨ zoneValue zone = none) :
    readZone role zone s = .refused .outOfRange := by
  unfold readZone
  rcases h with h | h
  · rw [s.roleBank_none h]
  · rw [h]; cases s.roleBank role <;> rfl

theorem readZone_inRange {role : Byte} {zone : ZoneCode} {z : Nat} (h : role.toNat ≤ 1)
    (hz : zoneValue zone = some z) :
    readZone role zone s =
      let n := if role = 0 then s.active else s.active.other
      .done s (some (.zone n (s.bank n).zones.length ((s.bank n).entryAt z))) := by
  unfold readZone
  rw [s.roleBank_eq h, hz]

theorem readDepotRow_outOfRange {role depot cls : Byte}
    (h : 1 < role.toNat ∨ isDepot depot.toNat = false ∨ 3 < cls.toNat) :
    readDepotRow role depot cls s = .refused .outOfRange := by
  unfold readDepotRow
  split
  · rename_i n hn
    refine if_pos ?_
    have h := h.resolve_left fun h => by rw [s.roleBank_none h] at hn; cases hn
    simp only [Bool.or_eq_true, Bool.not_eq_true']
    refine h.imp_right fun hc => ?_
    rw [Bool.eq_false_iff, Ne, isClass_iff]
    omega
  · rfl

theorem readDepotRow_inRange {role depot cls : Byte} (h : role.toNat ≤ 1)
    (hd : isDepot depot.toNat = true) (hc : cls.toNat ≤ 3) :
    readDepotRow role depot cls s =
      let n := if role = 0 then s.active else s.active.other
      .done s (some (.row n ((s.bank n).rows.get? (rowSlot cls.toNat depot.toNat)))) := by
  unfold readDepotRow
  rw [s.roleBank_eq h]
  exact if_neg (by simp [hd, (isClass_iff cls).2 hc])

theorem ZoneEntry.contains_iff (e : ZoneEntry) (z : Nat) :
    e.contains z = true ↔ e.first ≤ z ∧ z ≤ e.last := by
  simp [ZoneEntry.contains]

/-- Entries of which no two share a zone: at most one contains a zone. -/
theorem Bank.within.contains_unique {b : Bank} (h : b.within) {e x : ZoneEntry} {z : Nat}
    (he : e ∈ b.zones) (hx : x ∈ b.zones) (hez : e.contains z = true) (hxz : x.contains z = true) :
    e = x := by
  rw [ZoneEntry.contains_iff] at hez hxz
  by_contra hne
  have hsymm : Std.Symm fun e x : ZoneEntry => e.last < x.first ∨ x.last < e.first := ⟨fun _ _ => Or.symm⟩
  have hap := (h.apart.imp fun h => Or.inl h : b.zones.Pairwise fun e x => e.last < x.first ∨
    x.last < e.first).forall he hx hne
  omega

theorem Bank.entryAt_of_contains {b : Bank} (h : b.within) {x : ZoneEntry} {z : Nat} (hx : x ∈ b.zones)
    (hz : x.contains z = true) : b.entryAt z = some x := by
  unfold Bank.entryAt
  cases hf : b.zones.find? (·.contains z) with
  | none => exact absurd hz (by simpa using List.find?_eq_none.1 hf x hx)
  | some e =>
    have hez : e.contains z = true := by simpa using List.find?_some hf
    have he := h.contains_unique (List.mem_of_find?_eq_some hf) hx hez hz
    rw [he, Option.some_or]

/-- With no entry that contains the zone: the lowest above it. -/
theorem Bank.entryAt_of_not_contains {b : Bank} {z : Nat} (hz : ∀ x ∈ b.zones, x.contains z = false) :
    b.entryAt z = b.zones.find? fun e => z < e.first := by
  unfold Bank.entryAt
  rw [List.find?_eq_none.2 fun x hx => by simp [hz x hx], Option.none_or]

/-- The first entry above a zone is the lowest. -/
theorem Bank.within.lowest_above {b : Bank} (h : b.within) {x : ZoneEntry} {z : Nat}
    (hx : b.zones.find? (fun e => z < e.first) = some x) :
    x ∈ b.zones ∧ z < x.first ∧ ∀ y ∈ b.zones, z < y.first → x.first ≤ y.first := by
  refine ⟨List.mem_of_find?_eq_some hx, by simpa using List.find?_some hx, fun y hy hzy => ?_⟩
  obtain ⟨-, pre, post, hzs, hpre⟩ := List.find?_eq_some_iff_append.1 hx
  have hs := h.firsts
  rw [hzs] at hy hs
  rcases List.mem_append.1 hy with hy | hy
  · have := hpre y hy
    simp [hzy] at this
  · rcases List.mem_cons.1 hy with rfl | hy
    · exact Nat.le_refl _
    · exact Nat.le_of_lt (List.rel_of_pairwise_cons (List.pairwise_append.1 hs).2.1 hy)

/-- Settles O35: the tests in order, and the bank of the role. -/
theorem bankReadsReportTheBankOfTheRole : Obligations.BankReadsReportTheBankOfTheRole := by
  intro s role depot cls zone rz rr n b
  refine ⟨fun h => ⟨fun hr => ?_, fun z hr hz => ⟨b.entryAt z, ?_, fun hw => ⟨fun x hx hc => ?_, fun hc => ?_⟩⟩⟩,
    fun h => ⟨fun hr => ?_, fun hr hd hc => ?_⟩⟩
  · exact (exec_readZone ..).trans (takeRequest_refused h.1 (readZone_outOfRange hr))
  · exact (exec_readZone ..).trans (takeRequest_record h (readZone_inRange hr hz))
  · exact Bank.entryAt_of_contains hw hx hc
  · rw [Bank.entryAt_of_not_contains hc]
    refine ⟨fun x hx => hw.lowest_above hx, fun hn y hy => ?_⟩
    simpa using List.find?_eq_none.1 hn y hy
  · exact (exec_readDepotRow ..).trans (takeRequest_refused h.1 (readDepotRow_outOfRange hr))
  · exact (exec_readDepotRow ..).trans (takeRequest_record h (readDepotRow_inRange hr hd hc))

/-! ## Trailer classes (R43, R44) -/

theorem TrailerClass.inRange_iff (c : TrailerClass) : c.inRange = true ↔
    4 ≤ c.rows ∧ c.rows ≤ 16 ∧ 60 ≤ c.pitch ∧ c.pitch ≤ 150 ∧ c.front ≤ 300 ∧ 300 ≤ c.axle ∧
      c.axle ≤ 1500 ∧ c.kingpinTare ≤ 20000 ∧ c.axleTare ≤ 20000 ∧ 1000 ≤ c.kingpinLimit ∧
      c.kingpinLimit ≤ 30000 ∧ 1000 ≤ c.axleLimit ∧ c.axleLimit ≤ 40000 ∧ 1000 ≤ c.payload ∧
      c.payload ≤ 30000 := by
  simp only [TrailerClass.inRange, Bool.and_eq_true, decide_eq_true_eq, and_assoc]

theorem putTrailerClass_outOfRange {n : Nat} {c : TrailerClass} (h : ¬(n ≤ 7 ∧ c.inRange = true)) :
    putTrailerClass n c s = .refused .outOfRange :=
  if_pos (by
    rw [← isClassSlot_iff, ← Bool.and_eq_true, Bool.not_eq_true, Bool.and_eq_false_iff] at h
    simpa using h)

theorem putTrailerClass_inRange {n : Nat} {c : TrailerClass} (h : n ≤ 7 ∧ c.inRange = true) :
    putTrailerClass n c s = if s.trunksOfClass n ≠ 0 then .refused .inUse
      else .done { s with classes := s.classes.put n c } none :=
  if_neg (by simp [(isClassSlot_iff n).2 h.1, h.2])

theorem State.trunksOfClass_eq_zero (s : State) (n : Nat) :
    s.trunksOfClass n = 0 ↔ ∀ e ∈ s.trunks, e.2.cls ≠ n := by
  simp [State.trunksOfClass, List.filter_eq_nil_iff]

/-- Settles O38: the tests in order, and the slot written. -/
theorem trailerClassIsPutUnlessInUse : Obligations.TrailerClassIsPutUnlessInUse := by
  intro s cls rows pitch front axle kingpinTare axleTare kingpinLimit axleLimit payload h c x inRange
  have hin : inRange ↔ cls.toNat ≤ 7 ∧ x.inRange = true := by
    rw [TrailerClass.inRange_iff]
  rw [hin]
  refine ⟨fun hr => ?_, fun hr hu => ?_, fun hr hu => ⟨?_, Table.get?_put _ _ _⟩⟩
  · exact (exec_putTrailerClass ..).trans (takeRequest_refused h (putTrailerClass_outOfRange hr))
  · have hne : s.trunksOfClass cls.toNat ≠ 0 := by
      rw [Ne, State.trunksOfClass_eq_zero]
      push Not
      exact hu
    exact (exec_putTrailerClass ..).trans (takeRequest_refused h
      ((putTrailerClass_inRange hr).trans (if_pos hne)))
  · have h0 := (s.trunksOfClass_eq_zero cls.toNat).2 hu
    exact (exec_putTrailerClass ..).trans (takeRequest_done h
      ((putTrailerClass_inRange hr).trans (if_neg (not_not.2 h0))))

/-! ## READ_TRUNK (R59) -/

theorem readTrunk_outOfRange {k start : Nat} (h : isTrunkNumber k = false ∨ 127 < start) :
    readTrunk k start s = .refused .outOfRange := if_pos (by simpa using h)

theorem readTrunk_inRange {k start : Nat} (h : isTrunkNumber k = true) (hs : start ≤ 127) :
    readTrunk k start s = .done s (some (.trunk ((s.trunk? k).map fun r => r.report start))) :=
  if_neg (by simp [h]; omega)

/-- Every booking has one of the three standings. -/
theorem Trunk.standings_add (r : Trunk) :
    r.standingCount .unreleased + r.standingCount .released + r.standingCount .loaded =
      r.window.length := by
  unfold Trunk.standingCount
  induction r.window with
  | nil => rfl
  | cons b bs ih => cases h : b.standing <;> simp [h] <;> omega

theorem Trunk.standingCount_eq (r : Trunk) (x : Standing) :
    r.standingCount x = r.window.countP (·.standing = x) := List.countP_eq_length_filter.symm

/-- The record of a report has 42 bytes and 16 for each booking in it. -/
theorem Trunk.size_report (r : Trunk) (start : Nat) :
    (Record.trunk (some (r.report start))).size = 42 + 16 * min 16 (r.window.length - start) := by
  simp [Record.size, Trunk.report]

/-- Settles O44: the tests in order, and the window counted by standing. -/
theorem readTrunkReturnsRecordAndWindow : Obligations.ReadTrunkReturnsRecordAndWindow := by
  intro s trunk start h c
  refine ⟨fun hr => ?_, fun hk hs => ⟨fun hn ht => ?_, fun r hr ht => ⟨r.report start.toNat, ?_, ?_⟩⟩⟩
  · exact (exec_readTrunk ..).trans (takeRequest_refused h (readTrunk_outOfRange hr))
  · exact (exec_readTrunk ..).trans (takeRequest_record ht
      ((readTrunk_inRange hk hs).trans (by rw [hn]; rfl)))
  · rw [← r.size_report] at ht
    exact (exec_readTrunk ..).trans (takeRequest_record ht
      ((readTrunk_inRange hk hs).trans (by rw [hr]; rfl)))
  · refine ⟨rfl, rfl, rfl, rfl, rfl, rfl, rfl, rfl, rfl, rfl, rfl, rfl, rfl, r.standingCount_eq _,
      r.standingCount_eq _, r.standingCount_eq _, r.standings_add, rfl, rfl, rfl, rfl, rfl, rfl, rfl,
      fun i => ?_⟩
    simp [Trunk.report, List.getElem?_take]

/-! ## Pallets (R9, R147) -/

theorem isDecimal_label_iff (l : Label) :
    isDecimal (labelDigits l) = true ↔ ∀ i, i < 12 → l.toNat / 16 ^ i % 16 ≤ 9 := by
  rw [isDecimal_labelDigits]
  have flip (P : Nat → Prop) : (∀ i < 12, P (11 - i)) ↔ ∀ i < 12, P i :=
    ⟨fun h i hi => by simpa [show 11 - (11 - i) = i by omega] using h (11 - i) (by omega),
      fun h i hi => h (11 - i) (by omega)⟩
  exact flip fun i => l.toNat / 16 ^ i % 16 ≤ 9

theorem readPallet_notDecimal {l : Label} (h : ¬isDecimal (labelDigits l) = true) :
    readPallet l s = .refused .outOfRange := if_pos (by simpa using h)

theorem readPallet_decimal {l : Label} (h : isDecimal (labelDigits l) = true) :
    readPallet l s = .done s (some (.pallet (s.pallet? l))) := if_neg (by simpa using h)

theorem removePallet_notDecimal {l : Label} (h : ¬isDecimal (labelDigits l) = true) :
    removePallet l s = .refused .outOfRange := if_pos (by simpa using h)

theorem removePallet_absent {l : Label} (h : isDecimal (labelDigits l) = true)
    (hp : s.pallet? l = none) : removePallet l s = .refused .noSuch := by
  unfold removePallet
  rw [if_neg (by simpa using h), hp]

theorem removePallet_present {l : Label} {p : Pallet} (h : isDecimal (labelDigits l) = true)
    (hp : s.pallet? l = some p) : removePallet l s =
      if p.state = .exception ∨ p.state = .atRework then
        .event { s := s.freeRecord l, work := closing }
      else .refused .wrongState := by
  unfold removePallet
  rw [if_neg (by simpa using h), hp]
  simp only [Bool.or_eq_true, decide_eq_true_eq]

/-- A removal of a record that is there. -/
theorem Table.length_erase {α : Type} {tb : Table α} {k : Nat} (h : (tb.get? k).isSome) :
    (tb.erase k).length + 1 = tb.length := by
  induction tb with
  | nil => cases h
  | cons e tb ih =>
    rw [Table.get?_cons] at h
    unfold Table.erase
    split
    · rfl
    · rw [if_neg ‹_›] at h
      rw [List.length_cons, ih h, List.length_cons]

/-! ## What frees a record (R148) -/

theorem State.pallets_freeMoverOf (s : State) (mv : Move) (c : Bool) :
    (s.freeMoverOf mv c).pallets = s.pallets := by
  have hfree (u : State) (m : Nat) : (u.freeMover m).pallets = u.pallets := by
    unfold State.freeMover
    dsimp only
    split <;> rfl
  unfold State.freeMoverOf
  split
  · rfl
  · rw [hfree]
    split
    · exact State.sendDirective_pallets ..
    · rfl

theorem Table.adjust_self {α : Type} (tb : Table α) (k : Nat) : tb.adjust k (fun x => x) = tb := by
  induction tb with
  | nil => rfl
  | cons e tb ih =>
    obtain ⟨i, u⟩ := e
    rw [Table.adjust, ih]
    split <;> rfl

theorem Table.adjust_of_absent {α : Type} {tb : Table α} {k : Nat} (h : tb.get? k = none) (f : α → α) :
    tb.adjust k f = tb := by
  induction tb with
  | nil => rfl
  | cons e tb ih =>
    rw [Table.get?_cons] at h
    rw [Table.adjust]
    split
    · rw [if_pos ‹_›] at h; cases h
    · rw [if_neg ‹_›] at h; rw [ih h]

/-- A move taken off a label writes that label's record alone. -/
theorem State.pallets_takeMove (s : State) (l : Label) (c : Bool) :
    (s.takeMove l c).pallets = s.pallets.adjust l.toNat fun p => { p with move := none } := by
  unfold State.takeMove State.move? State.pallet?
  cases hp : s.pallets.get? l.toNat with
  | none =>
    rw [Option.bind_none]
    exact (Table.adjust_of_absent hp _).symm
  | some p =>
    cases hm : p.move with
    | none =>
      rw [Option.bind_some, hm]
      conv_lhs => rw [← Table.adjust_self s.pallets l.toNat]
      exact Table.adjust_congr hp (by rw [← hm])
    | some mv =>
      rw [Option.bind_some, hm]
      dsimp only
      split
      · rfl
      · exact State.pallets_freeMoverOf ..
      · exact State.pallets_freeMoverOf ..

/-- A claim's release writes that label's record alone. -/
theorem State.pallets_releaseClaim (s : State) (l : Label) :
    ∃ f, (s.releaseClaim l).pallets = s.pallets.adjust l.toNat f := by
  unfold State.releaseClaim
  split
  · exact ⟨_, (Table.adjust_self ..).symm⟩
  · exact ⟨_, rfl⟩

/-- A freed record leaves the table, and no other does. -/
theorem State.pallets_freeRecord (s : State) (l : Label) :
    ∃ f g, (s.freeRecord l).pallets = ((s.pallets.adjust l.toNat f).adjust l.toNat g).erase l.toNat := by
  obtain ⟨g, hg⟩ := (s.withdrawMove l).pallets_releaseClaim l
  refine ⟨fun p => { p with move := none }, g, (State.report_pallets ..).trans ?_⟩
  rw [← s.pallets_takeMove l true]
  exact congrArg (fun tb : Table Pallet => tb.erase l.toNat) hg

/-- Settles O49: the tests in order, and the record after its move and claim are given up. -/
theorem palletIsReadAndRemoved : Obligations.PalletIsReadAndRemoved := by
  intro s l rd rm decimal
  have hd : isDecimal (labelDigits l) = true ↔ decimal := isDecimal_label_iff l
  refine ⟨fun h => ⟨fun hn => ?_, fun hy => ?_⟩, fun h => ⟨fun hn => ?_, fun hy hp => ?_, fun p hy hp =>
    ⟨fun h1 h2 => ?_, fun h12 => ⟨?_, fun hw => ?_⟩⟩⟩⟩
  · exact (exec_readPallet ..).trans (takeRequest_refused h.1 (readPallet_notDecimal (hd.not.2 hn)))
  · exact (exec_readPallet ..).trans (takeRequest_record h (readPallet_decimal (hd.2 hy)))
  · exact (exec_removePallet ..).trans (takeRequest_refused h (removePallet_notDecimal (hd.not.2 hn)))
  · exact (exec_removePallet ..).trans (takeRequest_refused h (removePallet_absent (hd.2 hy) hp))
  · exact (exec_removePallet ..).trans (takeRequest_refused h
      ((removePallet_present (hd.2 hy) hp).trans (if_neg (not_or.2 ⟨h1, h2⟩))))
  · have hx := takeRequest_closing (c := rm) (e := { s := s.freeRecord l, work := closing }) h
      ((removePallet_present (hd.2 hy) hp).trans (if_pos h12)) rfl
    exact (exec_removePallet ..).trans hx
  · obtain ⟨f, g, e⟩ := s.pallets_freeRecord l
    have hfreed : (s.freeRecord l).pallets =
      ((s.pallets.adjust l.toNat f).adjust l.toNat g).erase l.toNat := e
    refine ⟨?_, ?_⟩
    · show (s.freeRecord l).pallets.get? l.toNat = none
      rw [hfreed]
      exact Table.get?_erase_self (Table.wf_adjust (Table.wf_adjust hw _ _) _ _) _
    · show (s.freeRecord l).pallets.length + 1 = s.pallets.length
      have hs : (s.pallets.get? l.toNat) = some p := hp
      rw [hfreed, Table.length_erase (by simp [Table.get?_adjust, hs]), Table.length_adjust,
        Table.length_adjust]

end Sys2Proof.Machine

/-! The notice unit (chapter 9): what a raise and a report write, the requests that set conditions and settings, and the levels that stand after an event is closed. -/

namespace Sys2Proof.Machine

variable {s t : State}

/-! ## Raises and reports (R150 to R154) -/

theorem State.noticeTo_condition (s : State) (e : Bool) (a : Option Address) (n : Notice) (c : CondName) :
    (s.noticeTo e a n).condition c = s.condition c := by
  unfold State.noticeTo
  split
  · exact State.condition_placeOwn ..
  · rfl

/-- A change of a raw value leaves the other conditions. -/
theorem State.condition_changeRaw_ne (s : State) {c k : CondName} (h : k ≠ c) (v : Bool)
    (x : Option Subject) : (s.changeRaw c v x).condition k = s.condition k := by
  unfold State.changeRaw State.sendNotices
  dsimp only
  split
  · rw [State.noticeTo_condition, State.noticeTo_condition, State.condition_modCondition, if_neg h]
  · rw [State.condition_modCondition, if_neg h]

theorem State.condition_raise_ne (s : State) {c k : CondName} (h : k ≠ c) (x : Subject) :
    (s.raise c x).condition k = s.condition k := by
  unfold State.raise
  split
  · rfl
  · exact s.condition_changeRaw_ne h ..

theorem State.condition_report_ne (s : State) {c k : CondName} (h : k ≠ c) (x : Option Subject) :
    (s.report c x).condition k = s.condition k := by
  unfold State.report
  split
  · rfl
  · exact s.condition_changeRaw_ne h ..

theorem State.placeOwn_yard_floor (s : State) (a : Address) (b : OwnBody) :
    (s.placeOwn .yard a b).floor = s.floor := by
  unfold State.placeOwn
  dsimp only
  split <;> rfl

/-- Notices are sent on YARD alone (R154). -/
theorem State.floor_changeRaw (s : State) (c : CondName) (v : Bool) (x : Option Subject) :
    (s.changeRaw c v x).floor = s.floor := by
  have send (u : State) (e a n) : (u.noticeTo e a n).floor = u.floor := by
    unfold State.noticeTo
    split
    · exact u.placeOwn_yard_floor ..
    · rfl
  unfold State.changeRaw State.sendNotices
  dsimp only
  split
  · rw [send, send]; rfl
  · rfl

theorem State.floor_report (s : State) (c : CondName) (x : Option Subject) :
    (s.report c x).floor = s.floor := by
  unfold State.report
  split
  · rfl
  · exact s.floor_changeRaw ..

theorem State.report_repeats (s : State) (c : CondName) (x : Option Subject) :
    (s.report c x).repeats = s.repeats := by
  obtain ⟨_, _, _, h⟩ := s.report_eq c x; rw [h]

/-- The condition of a raise that sets its status. -/
theorem State.condition_modCondition_self (s : State) (c : CondName) (f : Condition → Condition) :
    (s.modCondition c f).condition c = f (s.condition c) := by
  rw [State.condition_modCondition, if_pos rfl]

/-- Settles O51: by the raw value, then by the status and the enables. -/
theorem raisedConditionSetsItsStatusOnce : Obligations.RaisedConditionSetsItsStatusOnce := by
  refine ⟨fun s c x => ?_, fun s value h => (exec_testNotice ..).trans (takeRequest_done h rfl)⟩
  intro r on notice send
  have hset : r.setsStatus c.isLevel true s.keepAll = on := by
    simp [Condition.setsStatus, on]
  refine ⟨fun hr => State.raise_of_raw hr, fun hr ho => ?_, fun hr ho => ?_⟩
  · have hraise : s.raise c x = s.changeRaw c true (some x) := if_neg (by rw [hr]; simp)
    rw [hraise]
    exact if_neg (by rw [hset, ho]; simp)
  · have hraise : s.raise c x = s.changeRaw c true (some x) := if_neg (by rw [hr]; simp)
    intro u
    have hchange : s.changeRaw c true (some x) = u.sendNotices c := if_pos (by rw [hset, ho])
    have hu : u.condition c = { r with raw := true, status := true, subject := some x } :=
      s.condition_modCondition_self c _
    rw [hraise, hchange]
    unfold State.sendNotices
    rw [hu]
    rfl

/-! ## The requests of the notice unit (R155 to R158) -/

/-- A condition after a change of a set of conditions. -/
theorem State.condition_modConditions (s : State) (set : BitVec 16)
    (f : CondName → Condition → Condition) (c : CondName) :
    (s.modConditions set f).condition c = if c.isIn set then f c (s.condition c) else s.condition c := by
  have hc : c ∈ CondName.all := by cases c <;> decide
  have hnd : CondName.all.Nodup := by decide
  have fold (cs : List CondName) : ∀ (s : State), cs.Nodup →
      (cs.foldl (fun s c => if c.isIn set then s.modCondition c (f c) else s) s).condition c =
        if c ∈ cs ∧ c.isIn set = true then f c (s.condition c) else s.condition c := by
    induction cs with
    | nil => intro s _; simp
    | cons k cs ih =>
      intro s hn
      obtain ⟨hk, hn⟩ := List.nodup_cons.1 hn
      rw [List.foldl_cons, ih _ hn]
      by_cases hck : c = k
      · subst hck
        by_cases hin : c.isIn set = true
        · simp [hk, hin, State.condition_modCondition_self]
        · simp [hin]
      · by_cases hin : k.isIn set = true
        · simp [hck, hin, State.condition_modCondition]
        · simp [hck, hin]
  rw [State.modConditions, fold _ s hnd]
  simp [hc]

theorem CondName.isLevel_eq (c : CondName) : c.isLevel = decide (c.number ≤ 4) := rfl

theorem setNotice_outOfRange {set : BitVec 16} {a b both keep : Byte}
    (h : ¬(a.toNat ≤ 1 ∧ b.toNat ≤ 1 ∧ both.toNat ≤ 1 ∧ keep.toNat ≤ 2)) :
    setNotice set a b both keep s = .refused .outOfRange :=
  if_pos (by simp only [Bool.or_eq_true, decide_eq_true_eq]; omega)

theorem setNotice_inRange {set : BitVec 16} {a b both keep : Byte}
    (h : a.toNat ≤ 1 ∧ b.toNat ≤ 1 ∧ both.toNat ≤ 1 ∧ keep.toNat ≤ 2) :
    setNotice set a b both keep s =
      let u := s.modConditions set fun c r => r.configure c.isLevel (a = 1) (b = 1) (both = 1)
      .done { u with keepAll := if keep = 2 then u.keepAll else keep = 1 } none :=
  if_neg (by simp only [Bool.or_eq_true, decide_eq_true_eq]; omega)

theorem setChannel_outOfRange {ch pr : Byte} {a : Address} (h : 1 < ch.toNat ∨ 1 < pr.toNat) :
    setChannel ch pr a s = .refused .outOfRange := if_pos (by simpa using h)

theorem setChannel_inRange {ch pr : Byte} {a : Address} (h1 : ch.toNat ≤ 1) (h2 : pr.toNat ≤ 1) :
    setChannel ch pr a s = .done (if ch = 0 then
      { s with channelA := if pr = 1 then some a else none }
      else { s with channelB := if pr = 1 then some a else none }) none :=
  if_neg (by simp only [Bool.or_eq_true, decide_eq_true_eq]; omega)

/-- Settles O50: each named condition is written once, the others are not. -/
theorem noticeRequestsWriteTheConditions : Obligations.NoticeRequestsWriteTheConditions := by
  intro s set ea eb both keep channel presence address h cl sn sc addr valid
  refine ⟨?_, fun hv => ?_, fun hv => ?_, fun hr => ?_, fun h1 h2 => ⟨fun h0 => ?_, fun h1' => ?_⟩⟩
  · obtain ⟨v, hv⟩ := s.modConditions_eq set fun c r => r.clear c.isLevel
    refine ⟨v, ?_, fun c => ?_⟩
    · rw [← hv]
      exact (exec_clearNotice ..).trans (takeRequest_done h rfl)
    · rw [← hv, State.condition_modConditions]
      rfl
  · exact (exec_setNotice ..).trans (takeRequest_refused h (setNotice_outOfRange hv))
  · obtain ⟨v, hv'⟩ := s.modConditions_eq set fun c r =>
      r.configure c.isLevel (ea = 1) (eb = 1) (both = 1)
    refine ⟨v, ?_, fun c => ?_⟩
    · have hrule := setNotice_inRange (s := s) (set := set) hv
      rw [hv'] at hrule
      exact (exec_setNotice ..).trans (takeRequest_done h hrule)
    · rw [← hv', State.condition_modConditions]
      simp only [Condition.configure, CondName.isLevel_eq, decide_eq_true_eq]
      rfl
  · exact (exec_setChannel ..).trans (takeRequest_refused h (setChannel_outOfRange hr))
  · exact (exec_setChannel ..).trans (takeRequest_done h
      ((setChannel_inRange h1 h2).trans (by rw [if_pos h0])))
  · have h0 : channel ≠ 0 := by rw [h1']; decide
    exact (exec_setChannel ..).trans (takeRequest_done h
      ((setChannel_inRange h1 h2).trans (by rw [if_neg h0])))

/-! ## Limits and outputs (R170, R171) -/

theorem Limits.inRange_iff (x : Limits) : x.inRange = true ↔
    1 ≤ x.repeatWindow ∧ x.repeatWindow ≤ 60 ∧ 5 ≤ x.acceptTimeout ∧ x.acceptTimeout ≤ 120 ∧
      60 ≤ x.doneTimeout ∧ x.doneTimeout ≤ 1800 ∧ 10 ≤ x.allowance ∧ x.allowance ≤ 300 ∧
      x.threshold ≤ 3600 ∧ 256 ≤ x.highWater ∧ x.highWater ≤ 4096 := by
  simp only [Limits.inRange, Bool.and_eq_true, decide_eq_true_eq, and_assoc]

/-- Settles O53: the ranges, and the report of the count of records. -/
theorem limitsOutputsAndNoticesAreSetAndRead : Obligations.LimitsOutputsAndNoticesAreSetAndRead := by
  refine ⟨fun s rw' acc dn al th hw address h => ?_, fun s => ⟨fun h => ?_, fun h => ?_⟩⟩
  · intro c inRange u
    have hin (x : Limits) (hx : x = { repeatWindow := rw'.toNat, acceptTimeout := acc.toNat
                                      doneTimeout := dn.toNat, allowance := al.toNat
                                      threshold := th.toNat, highWater := hw.toNat }) :
        x.inRange = true ↔ inRange := by
      rw [Limits.inRange_iff, hx]
    refine ⟨fun hr => ?_, fun hr => ?_, ?_, State.report_pallets .., State.report_repeats ..,
      State.floor_report .., fun k hk => State.condition_report_ne _ hk _, ?_⟩
    · exact (exec_setLimits ..).trans (takeRequest_refused h (if_pos (by
        rw [Bool.not_eq_true', Bool.eq_false_iff, Ne, hin _ rfl]; exact hr)))
    · exact (exec_setLimits ..).trans (takeRequest_done h (if_neg (by
        rw [Bool.not_eq_true', Bool.eq_false_iff, not_not, hin _ rfl]; exact hr)))
    · rw [show (u.condition .tableHigh).raw = _ from State.raw_report ..]
      dsimp only
      split <;> simp [*]
    · exact (exec_setOutputs ..).trans (takeRequest_done h rfl)
  · exact (exec_readNotices ..).trans (takeRequest_record h rfl)
  · exact (exec_readSettings ..).trans (takeRequest_record h rfl)

end Sys2Proof.Machine

/-! What a grant attempt leaves alone, and the levels that stand after an event is closed (R90, R116, R119). -/

namespace Sys2Proof.Machine

variable {s t : State}

/-- What the move arbiter's grants leave: doors, trunks, and every condition but MOVER_SILENT. -/
structure State.GrantKeeps (s t : State) : Prop where
  doors : t.doors = s.doors
  trunks : t.trunks = s.trunks
  conditions : ∀ c, c ≠ .moverSilent → t.condition c = s.condition c

namespace State.GrantKeeps

theorem refl (s : State) : s.GrantKeeps s := ⟨rfl, rfl, fun _ _ => rfl⟩

theorem trans {u : State} (h : s.GrantKeeps t) (k : t.GrantKeeps u) : s.GrantKeeps u :=
  ⟨k.doors.trans h.doors, k.trunks.trans h.trunks, fun c hc =>
    (k.conditions c hc).trans (h.conditions c hc)⟩

theorem same (hd : t.doors = s.doors) (ht : t.trunks = s.trunks) (hc : t.conditions = s.conditions) :
    s.GrantKeeps t := ⟨hd, ht, fun c _ => by unfold State.condition; rw [hc]⟩

theorem sendDirective (s : State) (m : Nat) (d : Directive) : s.GrantKeeps (s.sendDirective m d) := by
  obtain ⟨_, _, e⟩ := s.sendDirective_eq m d
  rw [e]
  exact same rfl rfl rfl

theorem countBurst (s : State) (q : Nat) : s.GrantKeeps (s.countBurst q) := by
  unfold State.countBurst
  dsimp only
  split <;> exact same rfl rfl rfl

theorem sendOffer (s : State) (l : Label) (m : Nat) : s.GrantKeeps (s.sendOffer l m) := by
  unfold State.sendOffer
  repeat' split
  all_goals first | exact refl _ | exact sendDirective ..

theorem giveBack (s : State) (m : Nat) : s.GrantKeeps (s.giveBack m) := by
  unfold State.giveBack State.returnMove
  repeat' split
  all_goals exact same rfl rfl rfl

theorem expireOffer (s : State) (m : Nat) : s.GrantKeeps (s.expireOffer m) := by
  have hg : s.GrantKeeps ((s.giveBack m).idleMover m .silent) :=
    (giveBack s m).trans (same rfl rfl rfl)
  exact hg.trans ⟨State.raise_doors .., State.raise_trunks .., fun c hc =>
    State.condition_raise_ne _ hc _⟩

theorem grant (s : State) (m q : Nat) (l : Label) : s.GrantKeeps (s.grant m q l) := by
  let u := State.setQueue { s.countBurst q with freeList := s.freeList.filter (· ≠ m) } q
    (((s.countBurst q).queue q).filter (· ≠ l))
  have hset : (s.countBurst q).GrantKeeps (u.offer m l) := same rfl rfl rfl
  have hoffer : s.GrantKeeps ((u.offer m l).sendOffer l m) :=
    ((countBurst s q).trans hset).trans (sendOffer _ l m)
  have e : s.grant m q l = ((u.offer m l).sendOffer l m).expireIfReached m := rfl
  rw [e]
  unfold State.expireIfReached
  split
  · exact hoffer.trans (expireOffer _ m)
  · exact hoffer

theorem grants (n : Nat) : ∀ s : State, s.GrantKeeps (s.grants n) := by
  induction n with
  | zero => exact refl
  | succ n ih =>
    intro s
    unfold State.grants
    repeat' split
    all_goals first | exact refl _ | exact (grant ..).trans (ih _)

theorem grantAttempt (s : State) : s.GrantKeeps s.grantAttempt := grants _ s

theorem door (h : s.GrantKeeps t) (d : Nat) : t.door d = s.door d := by
  unfold State.door; rw [h.doors]

theorem trunk? (h : s.GrantKeeps t) (k : Nat) : t.trunk? k = s.trunk? k := by
  unfold State.trunk?; rw [h.trunks]

end State.GrantKeeps

/-! ## The levels -/

theorem mem_doorNumbers (d : Nat) : d ∈ doorNumbers ↔ 1 ≤ d ∧ d ≤ 48 := by
  simp only [doorNumbers, List.mem_map, List.mem_range]
  exact ⟨fun ⟨i, hi, e⟩ => by omega, fun h => ⟨d - 1, by omega, by omega⟩⟩

theorem State.hasHeld_iff (s : State) (o : Option Nat) :
    s.hasHeld o = true ↔ ∃ k r, o = some k ∧ s.trunk? k = some r ∧ r.held ≠ [] := by
  unfold State.hasHeld
  cases o with
  | none => simp
  | some k => cases h : s.trunk? k <;> simp [h]

/-- A door's lane is full while a pallet of its active or next trunk waits (R90). -/
theorem State.lanePressed_iff (s : State) (d : Nat) : s.lanePressed d = true ↔
    (s.door d).claims = (s.door d).slots ∧ ∃ k r, ((s.door d).active = some k ∨
      (s.door d).next = some k) ∧ s.trunk? k = some r ∧ r.held ≠ [] := by
  unfold State.lanePressed
  simp only [Bool.and_eq_true, Bool.or_eq_true, beq_iff_eq, State.hasHeld_iff, or_and_right, exists_or]

theorem State.raw_reportLanePressure (s : State) :
    (s.reportLanePressure.condition .lanePressure).raw = true ↔
      ∃ d, 1 ≤ d ∧ d ≤ 48 ∧ s.lanePressed d = true := by
  rw [show (s.reportLanePressure.condition .lanePressure).raw = _ from State.raw_report ..]
  simp [mem_doorNumbers, and_assoc]

theorem State.raw_reportMoversShort (s : State) :
    (s.reportMoversShort.condition .moversShort).raw = true ↔
      s.freeList = [] ∧ ∃ q, q < 49 ∧ s.queue q ≠ [] := by
  rw [show (s.reportMoversShort.condition .moversShort).raw = _ from State.raw_report ..]
  by_cases h : s.freeList = [] <;> simp [h]

/-- Settles O52: the last report of each level gives its raw value. -/
theorem closedEventReportsTheLevels : Obligations.ClosedEventReportsTheLevels := by
  intro s
  have hg := State.GrantKeeps.grantAttempt s.reportLanePressure
  have hdoor (d) : s.closeEvent.door d = s.door d :=
    (State.door_report ..).trans ((hg.door d).trans (State.door_report ..))
  have htrunk (k) : s.closeEvent.trunk? k = s.trunk? k :=
    (State.trunk?_report ..).trans ((hg.trunk? k).trans (State.trunk?_report ..))
  have hfree : s.closeEvent.freeList = s.reportLanePressure.grantAttempt.freeList :=
    State.report_freeList ..
  have hqueue (q) : s.closeEvent.queue q = s.reportLanePressure.grantAttempt.queue q :=
    State.queue_report ..
  have hcond : s.closeEvent.condition .lanePressure = s.reportLanePressure.condition .lanePressure :=
    (State.condition_report_ne _ (by decide) _).trans (hg.conditions _ (by decide))
  refine ⟨?_, ?_⟩
  · simp only [hfree, hqueue]
    exact State.raw_reportMoversShort _
  · simp only [hcond, hdoor, htrunk, State.raw_reportLanePressure, State.lanePressed_iff]

/-! ## Urgency (R118) -/

/-- The weight of a pallet in a door's work, by its state and then its location or move. -/
def workWeight (p : Pallet) : Nat :=
  match p.state, p.location, p.move.map Move.kind with
  | .held, .apron _, _ => 2
  | .held, .lane _, _ => 1
  | .laneBound, _, some .put => 2
  | .laneBound, _, some .shift => 1
  | .staged, _, _ => 1
  | .loadBound, _, _ => 1
  | _, _, _ => 0

theorem Pallet.work_eq (p : Pallet) : p.work = workWeight p := by
  unfold Pallet.work workWeight
  cases p.state with
  | held => cases p.location <;> rfl
  | laneBound =>
    cases p.move.map Move.kind with
    | none => rfl
    | some k => cases k <;> rfl
  | _ => rfl

/-- Settles O59: by the active trunk and its phase. -/
theorem doorUrgencyFollowsPhaseAndSlack : Obligations.DoorUrgencyFollowsPhaseAndSlack := by
  intro s d weight
  have hw : Pallet.work = weight := funext fun p => p.work_eq.trans rfl
  refine ⟨fun h => ?_, fun k r ha hr => ?_⟩
  · unfold State.urgentDoor
    rw [h]
    rfl
  · intro work
    have hwork : s.work r = work := by unfold State.work; rw [hw]
    unfold State.urgentDoor
    rw [ha, Option.bind_some, hr]
    simp only [Bool.or_eq_true, decide_eq_true_eq, State.slack, hwork]

/-! ## The fit test and the balance test (R126, R127) -/

theorem Trunk.fit_stack {r : Trunk} {rows q w p : Nat} (hp : r.openPosition = some p)
    (h : 0 < r.fill ∧ r.fill + q ≤ 4 ∧ w ≤ r.topWeight) : r.fit rows q w = .stack p := by
  unfold Trunk.fit
  rw [hp]
  exact if_pos (by simp [h])

theorem Trunk.fit_fresh {r : Trunk} {rows q w : Nat}
    (h : ∀ p, r.openPosition = some p → ¬(0 < r.fill ∧ r.fill + q ≤ 4 ∧ w ≤ r.topWeight)) :
    r.fit rows q w = if r.nextPosition < 2 * rows then .fresh r.nextPosition else .none := by
  unfold Trunk.fit
  cases hp : r.openPosition with
  | none => rfl
  | some p => exact if_neg (by simpa [and_assoc] using h p hp)

/-- The quotient rounded up: the least number whose multiple is not below. -/
theorem ceil_div_spec (m : Nat) {n : Nat} (hn : 0 < n) :
    m ≤ n * ((m + (n - 1)) / n) ∧ ∀ j, m ≤ n * j → (m + (n - 1)) / n ≤ j := by
  refine ⟨?_, fun j hj => ?_⟩
  · have hd := Nat.div_add_mod (m + (n - 1)) n
    have hm := Nat.mod_lt (m + (n - 1)) hn
    omega
  · refine Nat.le_of_lt_succ ((Nat.div_lt_iff_lt_mul hn).2 ?_)
    rw [Nat.succ_mul, Nat.mul_comm]
    omega

/-- Settles O55: the fit test by its cases, and the ceilings and floors of the loads. -/
theorem fitAndBalanceTestsFollowTheirFormulas : Obligations.FitAndBalanceTestsFollowTheirFormulas := by
  refine ⟨fun r rows q w => ⟨fun p hp h1 h2 h3 => Trunk.fit_stack hp ⟨h1, h2, h3⟩, fun h next hnext => ?_⟩,
    fun t c w p hA => ?_⟩
  · have hn : next = r.nextPosition := by
      rw [hnext]; unfold Trunk.nextPosition; cases r.openPosition <;> rfl
    subst hn
    exact ⟨fun hl => (Trunk.fit_fresh h).trans (if_pos hl),
      fun hl => (Trunk.fit_fresh h).trans (if_neg (Nat.not_lt.2 hl))⟩
  · intro x m
    have hpos : 0 < 2 * c.axle := by omega
    obtain ⟨hup, hleast⟩ := ceil_div_spec m hpos
    have hdown : 2 * c.axle * (m / (2 * c.axle)) ≤ m := Nat.mul_div_le ..
    have haxle : x.axle = c.axleTare + (m + (2 * c.axle - 1)) / (2 * c.axle) := rfl
    have hking : x.kingpin = (c.kingpinTare : Int) + (t.plannedWeight + w) - (m / (2 * c.axle) : Nat) := by
      show ((c.kingpinTare + (t.plannedWeight + w) : Nat) : Int) - _ = _
      push_cast
      rfl
    refine ⟨rfl, rfl, ⟨_, haxle, hup, hleast⟩, ⟨_, hking, hdown, fun j hj => ?_⟩, ?_, ?_, ?_⟩
    · exact (Nat.le_div_iff_mul_le hpos).2 (by rwa [Nat.mul_comm])
    · simp [Projection.passes]
    · rw [haxle, Nat.mul_add]
      omega
    · have hdown' : (2 * c.axle * (m / (2 * c.axle) : Nat) : Int) ≤ m := by exact_mod_cast hdown
      rw [hking]
      linarith

/-! ## The choice of a trunk (R65, R66) -/

/-- The drop a trunk serves a depot at. -/
def Trunk.Serves (r : Trunk) (p : Pallet) (drop : Drop) : Prop :=
  (drop = .a ∧ p.depot = some r.dropA) ∨
    (drop = .b ∧ p.depot ≠ some r.dropA ∧ p.depot.isSome ∧ p.depot = r.dropB ∧
      ∀ b ∈ r.window, b.drop = .a → b.standing = .unreleased)

theorem Trunk.dropFor_iff (r : Trunk) (p : Pallet) (drop : Drop) :
    r.dropFor p.depot = some drop ↔ r.Serves p drop := by
  have hall : (!(r.window.any fun b => decide (b.drop = .a) && decide (b.standing ≠ .unreleased))) = true ↔
      ∀ b ∈ r.window, b.drop = .a → b.standing = .unreleased := by simp
  unfold Trunk.dropFor Trunk.Serves
  by_cases ha : p.depot = some r.dropA
  · cases drop <;> simp [ha]
  · rw [if_neg ha]
    cases drop with
    | a => simp [ha]
    | b =>
      simp only [Bool.and_eq_true, decide_eq_true_eq, hall, ha, and_false, false_or, ne_eq, not_false_eq_true, true_and,
        Option.ite_none_right_eq_some, and_true, and_assoc]

/-- Room for a pallet on a trunk (tests 5 and 6 of R65). -/
def State.HasRoom (s : State) (p : Pallet) (r : Trunk) : Prop :=
  r.bookedQuarters + p.quarters ≤ 8 * (s.classOf r).rows ∧
    r.bookedKg + p.bookingKg ≤ (s.classOf r).payload

/-- A trunk that passes the first four of the six tests. -/
def State.Serves (s : State) (p : Pallet) (k : Nat) (r : Trunk) (drop : Drop) : Prop :=
  (s.trunk? k = some r ∧ r.phase = .opened ∧ k ∉ p.excluded) ∧ r.Serves p drop

theorem State.testCandidate_of_serves {p : Pallet} {k : Nat} {r : Trunk} {drop : Drop}
    (h : s.Serves p k r drop) [Decidable (s.HasRoom p r)] :
    s.testCandidate p k = if s.HasRoom p r then .passes drop else .noRoom := by
  obtain ⟨⟨hr, hp, he⟩, hd⟩ := h
  unfold State.testCandidate
  rw [hr]
  simp only [hp, (r.dropFor_iff p drop).2 hd, List.contains_eq_mem, he, State.HasRoom]
  grind

theorem State.testCandidate_of_not_serves {p : Pallet} {k : Nat}
    (h : ∀ r drop, ¬s.Serves p k r drop) : s.testCandidate p k = .fails := by
  unfold State.testCandidate
  cases hr : s.trunk? k with
  | none => rfl
  | some r =>
    dsimp only
    split
    · rfl
    · rename_i hp
      cases hd : r.dropFor p.depot with
      | none => rfl
      | some drop =>
        dsimp only
        rw [if_pos]
        by_contra he
        exact h r drop ⟨⟨hr, not_not.1 hp, by simpa using he⟩, (r.dropFor_iff p drop).1 hd⟩

/-- What the tests find, by the first four and the room. -/
theorem State.testCandidate_cases (s : State) (p : Pallet) (k : Nat) :
    (s.testCandidate p k = .fails ∧ ∀ r drop, ¬s.Serves p k r drop) ∨
      ∃ r drop, s.Serves p k r drop ∧ (s.testCandidate p k = .passes drop ∧ s.HasRoom p r ∨
        s.testCandidate p k = .noRoom ∧ ¬s.HasRoom p r) := by
  classical
  by_cases h : ∃ r drop, s.Serves p k r drop
  · obtain ⟨r, drop, h⟩ := h
    refine .inr ⟨r, drop, h, ?_⟩
    rw [State.testCandidate_of_serves h]
    split
    · exact .inl ⟨rfl, ‹_›⟩
    · exact .inr ⟨rfl, ‹_›⟩
  · have h : ∀ r drop, ¬s.Serves p k r drop := by simpa using h
    exact .inl ⟨State.testCandidate_of_not_serves h, h⟩

/-- A trunk serves a pallet at one drop. -/
theorem State.Serves.unique {p : Pallet} {k : Nat} {r r' : Trunk} {d d' : Drop} (h : s.Serves p k r d)
    (h' : s.Serves p k r' d') : r = r' ∧ d = d' := by
  obtain ⟨⟨hr, -⟩, hd⟩ := h
  obtain ⟨⟨hr', -⟩, hd'⟩ := h'
  obtain rfl := Option.some.inj (hr.symm.trans hr')
  exact ⟨rfl, Option.some.inj (((r.dropFor_iff p d).2 hd).symm.trans ((r.dropFor_iff p d').2 hd'))⟩

theorem State.testCandidate_passes_iff (s : State) (p : Pallet) (k : Nat) (drop : Drop) :
    s.testCandidate p k = .passes drop ↔ ∃ r, s.Serves p k r drop ∧ s.HasRoom p r := by
  rcases s.testCandidate_cases p k with ⟨e, hn⟩ | ⟨r, d, h, ⟨e, hroom⟩ | ⟨e, hroom⟩⟩ <;> rw [e]
  · exact iff_of_false (by nofun) fun ⟨r, h, _⟩ => hn r drop h
  · refine ⟨fun hd => ⟨r, ?_, hroom⟩, fun ⟨r', h', _⟩ => by rw [(h.unique h').2]⟩
    cases hd; exact h
  · refine iff_of_false (by nofun) fun ⟨r', h', hroom'⟩ => ?_
    obtain ⟨rfl, -⟩ := h.unique h'
    exact hroom hroom'

theorem State.testCandidate_noRoom_iff (s : State) (p : Pallet) (k : Nat) :
    s.testCandidate p k = .noRoom ↔ ∃ r drop, s.Serves p k r drop ∧ ¬s.HasRoom p r := by
  rcases s.testCandidate_cases p k with ⟨e, hn⟩ | ⟨r, d, h, ⟨e, hroom⟩ | ⟨e, hroom⟩⟩ <;> rw [e]
  · exact iff_of_false (by nofun) fun ⟨r, drop, h, _⟩ => hn r drop h
  · refine iff_of_false (by nofun) fun ⟨r', drop, h', hroom'⟩ => ?_
    obtain ⟨rfl, -⟩ := h.unique h'
    exact hroom' hroom
  · exact iff_of_true rfl ⟨r, d, h, hroom⟩

theorem State.testCandidate_fails_iff (s : State) (p : Pallet) (k : Nat) :
    s.testCandidate p k = .fails ↔ ∀ r drop, ¬s.Serves p k r drop := by
  rcases s.testCandidate_cases p k with ⟨e, hn⟩ | ⟨r, d, h, ⟨e, -⟩ | ⟨e, -⟩⟩ <;> rw [e]
  · exact iff_of_true rfl hn
  · exact iff_of_false (by nofun) fun hn => hn r d h
  · exact iff_of_false (by nofun) fun hn => hn r d h

/-- A choice is the first candidate that passes, in a list read from place `i`; SPILL tells of an earlier
one without room. -/
structure State.FirstPassing (s : State) (p : Pallet) (ts : List Nat) (i : Nat) (spill : Bool)
    (c : Choice) : Prop where
  index : i ≤ c.index
  trunk : ts[c.index - i]? = some c.trunk
  passes : s.testCandidate p c.trunk = .passes c.drop
  before : ∀ t ∈ ts.take (c.index - i), ∀ drop, s.testCandidate p t ≠ .passes drop
  spill : c.spill = true ↔ spill = true ∨ ∃ t ∈ ts.take (c.index - i), s.testCandidate p t = .noRoom

theorem State.FirstPassing.cons {p : Pallet} {c : Choice} {t : Nat} {ts : List Nat} {i : Nat}
    {spill spill' : Bool} (h : s.FirstPassing p ts (i + 1) spill' c)
    (hn : ∀ drop, s.testCandidate p t ≠ .passes drop)
    (hs : spill' = true ↔ spill = true ∨ s.testCandidate p t = .noRoom) :
    s.FirstPassing p (t :: ts) i spill c := by
  have hi := h.index
  have hc : c.index - i = (c.index - (i + 1)) + 1 := by omega
  refine ⟨by omega, ?_, h.passes, ?_, ?_⟩
  · rw [hc, List.getElem?_cons_succ]
    exact h.trunk
  · rw [hc, List.take_succ_cons, List.forall_mem_cons]
    exact ⟨hn, h.before⟩
  · rw [hc, List.take_succ_cons, h.spill, hs]
    simp [or_assoc]

theorem State.chooseFrom_some {p : Pallet} {c : Choice} : ∀ {ts : List Nat} {i : Nat} {spill : Bool},
    s.chooseFrom p ts i spill = some c → s.FirstPassing p ts i spill c := by
  intro ts
  induction ts with
  | nil => intro i spill h; cases h
  | cons t ts ih =>
    intro i spill h
    unfold State.chooseFrom at h
    split at h
    · rename_i drop hpass
      cases h
      exact ⟨Nat.le_refl _, by simp, hpass, by simp, by simp⟩
    · rename_i hno
      exact (ih h).cons (by rw [hno]; nofun) (by simp [hno])
    · rename_i hno
      exact (ih h).cons (by rw [hno]; nofun) (by simp [hno])

theorem State.chooseFrom_none {p : Pallet} : ∀ {ts : List Nat} {i : Nat} {spill : Bool},
    s.chooseFrom p ts i spill = none ↔ ∀ t ∈ ts, ∀ drop, s.testCandidate p t ≠ .passes drop := by
  intro ts
  induction ts with
  | nil => intro i spill; simp [State.chooseFrom]
  | cons t ts ih =>
    intro i spill
    unfold State.chooseFrom
    split
    · rename_i drop hpass
      exact iff_of_false (by nofun) fun h => h t List.mem_cons_self drop hpass
    · rename_i hno
      rw [ih, List.forall_mem_cons, hno]
      simp
    · rename_i hno
      rw [ih, List.forall_mem_cons, hno]
      simp

/-- Settles O56: by induction on the candidates. -/
theorem chosenTrunkPassesTheSixTests : Obligations.ChosenTrunkPassesTheSixTests := by
  refine ⟨fun s p cs c h => ?_, fun s p cs => State.chooseFrom_none, fun s p k => ?_⟩
  · obtain ⟨hi, hget, hpass, hbefore, hspill⟩ : s.FirstPassing p cs 1 false c :=
      State.chooseFrom_some h
    obtain ⟨r, ⟨⟨hr, ho, he⟩, hd⟩, hq, hk⟩ := (s.testCandidate_passes_iff p c.trunk c.drop).1 hpass
    exact ⟨⟨r, hr, ho, he, hq, hk, hd⟩, hi, hget, hbefore, by simpa using hspill⟩
  · intro opened serves room
    refine ⟨fun drop => ?_, ?_, ?_⟩
    · exact (s.testCandidate_passes_iff p k drop).trans
        ⟨fun ⟨r, h, hroom⟩ => ⟨r, h.1, h.2, hroom⟩, fun ⟨r, h1, h2, hroom⟩ => ⟨r, ⟨h1, h2⟩, hroom⟩⟩
    · exact (s.testCandidate_noRoom_iff p k).trans
        ⟨fun ⟨r, d, h, hroom⟩ => ⟨r, d, h.1, h.2, hroom⟩,
          fun ⟨r, d, h1, h2, hroom⟩ => ⟨r, d, ⟨h1, h2⟩, hroom⟩⟩
    · exact (s.testCandidate_fails_iff p k).trans
        ⟨fun h r d h1 h2 => h r d ⟨h1, h2⟩, fun h r d hs => h r d hs.1 hs.2⟩

/-! ## Windows and excluded lists (R62, R68) -/

/-- Every drop-B booking before every drop-A one (R62). -/
def FarFirst (w : List Booking) : Prop := w.Pairwise fun x y => ¬(x.drop = .a ∧ y.drop = .b)

theorem Drop.ne_a_iff (d : Drop) : d ≠ .a ↔ d = .b := by cases d <;> simp

theorem FarFirst.joinWindow {w : List Booking} (h : FarFirst w) (b : Booking) :
    FarFirst (joinWindow w b) := by
  unfold Machine.joinWindow FarFirst
  split
  · rename_i hb
    rw [List.pairwise_append]
    exact ⟨h, List.pairwise_singleton _ _, fun x _ y hy => by
      rw [List.mem_singleton.1 hy, hb]; simp⟩
  · rename_i hb
    rw [List.append_assoc, List.pairwise_append]
    refine ⟨h.filter _, ?_, fun x hx y _ => ?_⟩
    · rw [List.singleton_append, List.pairwise_cons]
      exact ⟨fun y _ => by simp [hb], h.filter _⟩
    · have : x.drop = .b := by simpa using (List.mem_filter.1 hx).2
      simp [this]

theorem joinWindow_filter_same (w : List Booking) (b : Booking) :
    (joinWindow w b).filter (·.drop = b.drop) = w.filter (·.drop = b.drop) ++ [b] := by
  unfold joinWindow
  split <;> rename_i hb
  · simp [hb]
  · have hne : w.filter (fun a => decide (a.drop = .b) && decide (a.drop = .a)) = [] :=
      List.filter_eq_nil_iff.2 fun a _ => by cases a.drop <;> decide
    simp [hb, List.filter_filter, hne]

theorem joinWindow_filter_other (w : List Booking) (b : Booking) :
    (joinWindow w b).filter (·.drop ≠ b.drop) = w.filter (·.drop ≠ b.drop) := by
  unfold joinWindow
  split <;> rename_i hb
  · simp [hb]
  · have hne (x : Booking) : (!decide (x.drop = Drop.b)) = decide (x.drop = .a) := by
      cases x.drop <;> rfl
    have hab : w.filter (fun a => decide (a.drop = .a) && decide (a.drop = .b)) = [] :=
      List.filter_eq_nil_iff.2 fun a _ => by cases a.drop <;> decide
    simp [hb, List.filter_filter, hne, hab]

/-- Settles O57: the booking joins after its drop's segment. -/
theorem bookingKeepsTheFarDropFirst : Obligations.BookingKeepsTheFarDropFirst := by
  refine ⟨fun w b h => ⟨FarFirst.joinWindow h b, joinWindow_filter_same w b, joinWindow_filter_other w b⟩,
    fun xs k hl hn => ?_⟩
  by_cases hk : k ∈ xs
  · have e : excludeTrunk xs k = xs := if_pos (by simpa using hk)
    rw [e]
    exact ⟨hl, hn, hk, fun _ h => absurd hk h, fun _ h => absurd hk h⟩
  · have e : excludeTrunk xs k = if xs.length < 4 then xs ++ [k] else xs.drop 1 ++ [k] := by
      unfold excludeTrunk
      rw [if_neg (by simpa using hk)]
      by_cases h4 : xs.length < 4
      · simp [h4, show ¬4 < xs.length + 1 by omega]
      · have : xs.length = 4 := by omega
        simp [this, List.drop_append]
    have hn' : (xs ++ [k]).Nodup := by
      rw [List.nodup_append]
      exact ⟨hn, List.nodup_singleton _, fun a ha b hb => by
        rw [List.mem_singleton.1 hb]; exact fun e => hk (e ▸ ha)⟩
    rw [e]
    split
    · refine ⟨by simp; omega, hn', by simp, fun _ _ => rfl, fun h => by omega⟩
    · refine ⟨by simp; omega, ?_, by simp, fun h => absurd h ‹_›, fun _ _ => rfl⟩
      have : xs.drop 1 ++ [k] = (xs ++ [k]).drop 1 := by
        rw [List.drop_append_of_le_length (by omega)]
      rw [this]
      exact hn'.sublist (List.drop_sublist ..)

end Sys2Proof.Machine

/-! Moves (R102, R103): what a made move leaves, and the release of a booking (R128). -/

namespace Sys2Proof.Machine

variable {s t : State}

/-! ## Move numbers (R102) -/

theorem moveNumberAfter_range (n : Nat) : 1 ≤ moveNumberAfter n ∧ moveNumberAfter n ≤ 65535 := by
  unfold moveNumberAfter Config.lastMoveNumber
  split <;> omega

theorem freeMoveNumber_range (live : List Nat) (tries : Nat) : ∀ n,
    1 ≤ freeMoveNumber live tries n ∧ freeMoveNumber live tries n ≤ 65535 := by
  induction tries with
  | zero => exact moveNumberAfter_range
  | succ k ih =>
    intro n
    unfold freeMoveNumber
    dsimp only
    split
    · exact ih _
    · exact moveNumberAfter_range n

/-- The number of the next move (R102). -/
def State.nextMove (s : State) : Nat := freeMoveNumber s.liveMoves s.pallets.length s.lastMove

/-! ## A made move (R103) -/

section
variable (l : Label) (k : MoveKind) (a b : Location) (q : Nat)

theorem State.pallet?_makeMove (x : Label) : (s.makeMove l k a b q).pallet? x = if x = l then
    (s.pallet? l).map fun p => { p with
      move := some { number := s.nextMove, kind := k, source := a, destination := b, queue := q } }
    else s.pallet? x :=
  State.pallet?_modPallet s l x _

theorem State.queue_makeMove {q : Nat} (hq : q < 49) (r : Nat) :
    (s.makeMove l k a b q).queue r = if r = q then s.queue q ++ [l] else s.queue r :=
  State.queue_setQueue _ q r _ hq

@[simp] theorem State.trunk?_makeMove (x : Nat) : (s.makeMove l k a b q).trunk? x = s.trunk? x := rfl
@[simp] theorem State.door_makeMove (d : Nat) : (s.makeMove l k a b q).door d = s.door d := rfl
@[simp] theorem State.mover_makeMove (m : Nat) : (s.makeMove l k a b q).mover m = s.mover m := rfl
@[simp] theorem State.lastMove_makeMove : (s.makeMove l k a b q).lastMove = s.nextMove := rfl
@[simp] theorem State.movers_makeMove : (s.makeMove l k a b q).movers = s.movers := rfl
@[simp] theorem State.freeList_makeMove : (s.makeMove l k a b q).freeList = s.freeList := rfl
@[simp] theorem State.conditions_makeMove : (s.makeMove l k a b q).conditions = s.conditions := rfl
@[simp] theorem State.bookingCounter_makeMove :
    (s.makeMove l k a b q).bookingCounter = s.bookingCounter := rfl

end

/-! ## A release (R128) -/

/-- A trunk's record after the release of a booking. -/
def Trunk.release (r : Trunk) (b : Booking) (f : Fit) (x : Projection) : Trunk :=
  let r := (r.setStanding b.label .released).place f x b.quarters b.kg
  { r with inFlight := r.inFlight + 1 }

/-- The first five steps of a release (R128). -/
def State.releaseRecords (s : State) (k d : Nat) (b : Booking) (f : Fit) (p : Nat) (x : Projection) :
    State :=
  ((s.modTrunk k (·.release b f x)).modPallet b.label fun q =>
    { q with state := .loadBound, position := some p }).modDoor d fun y => { y with hold := false }

theorem State.releaseBooking_eq (s : State) (k d : Nat) (b : Booking) (f : Fit) (p : Nat)
    (x : Projection) : s.releaseBooking k d b f p x =
      (s.releaseRecords k d b f p x).makeMove b.label .load (.lane d) (.trailer k) d := rfl

/-- The trunk's record after a release at a position the fit test has found. -/
theorem Trunk.release_eq (r : Trunk) {f : Fit} {p : Nat} (h : f = .fresh p ∨ f = .stack p)
    (b : Booking) (x : Projection) :
    r.release b f x = { r with
      window := r.window.map fun y => if y.label = b.label then { y with standing := .released } else y
      plannedWeight := x.weight, plannedMoment := x.moment
      openPosition := if f = .fresh p then some p else r.openPosition
      fill := if f = .fresh p then b.quarters else r.fill + b.quarters
      topWeight := b.kg, inFlight := r.inFlight + 1 } := by
  rcases h with rfl | rfl
  · rw [if_pos rfl, if_pos rfl]; rfl
  · rw [if_neg (by nofun), if_neg (by nofun)]; rfl

section
variable (k d : Nat) (b : Booking) (f : Fit) (p : Nat) (x : Projection)

theorem State.trunk?_releaseRecords (j : Nat) : (s.releaseRecords k d b f p x).trunk? j =
    if j = k then (s.trunk? k).map (·.release b f x) else s.trunk? j :=
  State.trunk?_modTrunk s k j _

theorem State.pallet?_releaseRecords (l : Label) : (s.releaseRecords k d b f p x).pallet? l =
    if l = b.label then (s.pallet? b.label).map fun q => { q with state := .loadBound, position := some p }
    else s.pallet? l :=
  State.pallet?_modPallet (s.modTrunk k (·.release b f x)) b.label l _

theorem State.door_releaseRecords {d : Nat} (h1 : 1 ≤ d) (h48 : d ≤ 48) (e : Nat) :
    (s.releaseRecords k d b f p x).door e =
      if e = d then { s.door d with hold := false } else s.door e :=
  State.door_modDoor _ d e _ h1 h48

end

/-- Settles O48: what each write of a release leaves. -/
theorem releaseWritesBookingPalletTrunkAndMove : Obligations.ReleaseWritesBookingPalletTrunkAndMove := by
  intro s k d p b x q r h1 h48 hr hq hlabel f hf u fresh
  have hu : u = (s.releaseRecords k d b f p x).makeMove b.label .load (.lane d) (.trailer k) d :=
    State.releaseBooking_eq ..
  clear_value u
  subst hu
  have hqueue (j) := State.queue_makeMove (s := s.releaseRecords k d b f p x) b.label .load (.lane d)
    (.trailer k) (q := d) (by omega) j
  refine ⟨?_, ⟨(s.releaseRecords k d b f p x).nextMove, (freeMoveNumber_range ..).1,
    (freeMoveNumber_range ..).2, State.lastMove_makeMove .., ?_⟩, ?_, ?_,
    fun l hl => ?_, fun j hj => ?_, fun j hj => ⟨?_, ?_⟩, ?_, ?_, ?_, ?_⟩
  · rw [State.trunk?_makeMove, State.trunk?_releaseRecords, if_pos rfl, hr, Option.map_some,
      Trunk.release_eq r hf]
  · rw [State.pallet?_makeMove, if_pos rfl, State.pallet?_releaseRecords, if_pos rfl, hq]
    rfl
  · rw [hqueue, if_pos rfl]
    rfl
  · rw [State.door_makeMove, State.door_releaseRecords _ _ _ _ _ h1 h48, if_pos rfl]
  · rw [State.pallet?_makeMove, if_neg hl, State.pallet?_releaseRecords, if_neg hl]
  · rw [State.trunk?_makeMove, State.trunk?_releaseRecords, if_neg hj]
  · rw [hqueue, if_neg hj]
    rfl
  · rw [State.door_makeMove, State.door_releaseRecords _ _ _ _ _ h1 h48, if_neg hj]
  · rw [State.movers_makeMove]; rfl
  · rw [State.freeList_makeMove]; rfl
  · rw [State.conditions_makeMove]; rfl
  · rw [State.bookingCounter_makeMove]; rfl

end Sys2Proof.Machine

/-! Scans that need no event of their own, and terminal frames (chapters 1 and 6). -/

namespace Sys2Proof.Machine

variable {s t : State}

/-! ## The repeat list (R4, R5) -/

/-- A live repeat is answered by the two verdicts alone (R4). -/
theorem takeScan_repeat {src : Address} {kind : Byte} {k : PlaceKind} {scan : ScanFields}
    (hr : s.restart = none) (hk : placeKindOf kind = some k)
    (hp : placeInRange k scan.number.toNat = true) (hd : digitsPass scan = true)
    (hl : s.isRepeat k scan.number.toNat scan.label = true) :
    takeScan src kind scan s =
      .next (s.sendVerdict src (s.verdictOf kind (clampScan scan) .repeated)) := by
  have hl' : s.isRepeat k scan.number.toNat (clampScan scan).label = true := hl
  simp [takeScan, State.restartPending, hr, hk, hp, hd, hl']

theorem RepeatEntry.names_iff (e : RepeatEntry) (k : PlaceKind) (n : Nat) (l : Label) :
    e.names k n l = true ↔ e.kind = k ∧ e.number = n ∧ e.label = l := by
  simp [RepeatEntry.names, and_assoc]

theorem State.isRepeat_of_mem {k : PlaceKind} {n : Nat} {l : Label} {e : RepeatEntry}
    (h : e ∈ s.repeats) (hn : e.kind = k ∧ e.number = n ∧ e.label = l) (ht : e.time ≤ s.clock.value)
    (hw : s.clock.value - e.time < s.limits.repeatWindow) : s.isRepeat k n l = true := by
  refine List.any_eq_true.2 ⟨e, h, ?_⟩
  rw [(e.names_iff k n l).2 hn, Bool.true_and]
  simp [State.isLive, ht, hw]

/-- The entries that a new entry leaves: those of other places and labels, without the front one when
64 of them are left (R5). -/
def State.keptRepeats (s : State) (k : PlaceKind) (n : Nat) (l : Label) : List RepeatEntry :=
  let kept := s.repeats.filter fun e => !e.names k n l
  if 64 ≤ kept.length then kept.drop 1 else kept

theorem State.enterRepeat_eq (s : State) (k : PlaceKind) (n : Nat) (l : Label) : s.enterRepeat k n l =
    { s with repeats := s.keptRepeats k n l ++
        [{ kind := k, number := n, label := l, time := s.clock.value }] } := rfl

theorem State.keptRepeats_sublist (s : State) (k : PlaceKind) (n : Nat) (l : Label) :
    (s.keptRepeats k n l).Sublist (s.repeats.filter fun e => !e.names k n l) := by
  unfold State.keptRepeats
  dsimp only
  split
  · exact List.drop_sublist ..
  · exact .refl _

theorem State.keptRepeats_length (h : s.repeats.length ≤ 64) (k : PlaceKind) (n : Nat) (l : Label) :
    (s.keptRepeats k n l).length < 64 := by
  have hf := List.length_filter_le (fun e : RepeatEntry => !e.names k n l) s.repeats
  unfold State.keptRepeats
  dsimp only
  split
  · rw [List.length_drop]; omega
  · omega

/-- The code of a place kind (R1). -/
theorem placeKindOf_code (k : PlaceKind) : placeKindOf (match k with
    | .intake => 0
    | .lane => 1
    | .load => 2
    | .rework => 3) = some k := by
  cases k <;> rfl

/-- Settles O18: R4's answer by its branch of the scan decoder; the list by what a new entry keeps. -/
theorem repeatScansOnlyAnswerAndTheListStaysBounded :
    Obligations.RepeatScansOnlyAnswerAndTheListStaysBounded := by
  refine ⟨fun s src k scan e hr hp hd he hk hn hl ht hw => ?_, fun s k n l => ?_⟩
  · intro code c echo v
    have hrep := State.isRepeat_of_mem he ⟨hk, hn, hl⟩ ht hw
    have hexec : exec c s = takeScan src code scan s := by cases k <;> rfl
    have hcode : placeKindOf code = some k := by cases k <;> rfl
    have hv : s.verdictOf code (clampScan scan) .repeated = v := by
      show _ = match s.pallet? scan.label with | none => _ | some p => _
      unfold State.verdictOf
      rw [show (clampScan scan).label = scan.label from rfl]
      cases s.pallet? scan.label <;> rfl
    rw [hexec, takeScan_repeat hr hcode hp hd hrep, hv]
    rfl
  · intro same v new hlen hpair
    have hv : v.repeats = s.keptRepeats k n l ++ [new] := rfl
    have hsub := s.keptRepeats_sublist k n l
    have hlast : v.repeats.dropLast = s.keptRepeats k n l := by rw [hv, List.dropLast_concat]
    refine ⟨rfl, ?_, ?_, ?_, hlast⟩
    · rw [hv, List.getLast?_append]; rfl
    · have := State.keptRepeats_length hlen k n l
      rw [hv, List.length_append, List.length_singleton]
      omega
    · rw [hv, List.pairwise_append]
      refine ⟨(hpair.sublist List.filter_sublist).sublist hsub, List.pairwise_singleton _ _,
        fun x hx y hy hsame => ?_⟩
      have hnot := (List.mem_filter.1 (hsub.subset hx)).2
      rw [List.mem_singleton.1 hy] at hsame
      rw [(x.names_iff k n l).2 hsame] at hnot
      cases hnot

/-! ## Labels without a record (R7, R12) -/

/-- A scan that passes its checks, by the event of its place kind. -/
theorem takeScan_event {src : Address} {kind : Byte} {scan : ScanFields} {k : PlaceKind}
    {e : Ev} {r : VerdictResult} (hk : placeKindOf kind = some k) (h : s.ScanPasses k scan)
    (he : scanEvent (s.enterRepeat k scan.number.toNat scan.label) k (clampScan scan) = (e, r)) :
    takeScan src kind scan s = finishScan src kind (clampScan scan) (e, r) := by
  rw [takeScan_passes hk h, he]

/-- A scan whose handling has no work and gives no verdict fields. -/
theorem takeScan_plain {src : Address} {kind : Byte} {scan : ScanFields} {k : PlaceKind}
    {u : State} {r : VerdictResult} (hk : placeKindOf kind = some k) (h : s.ScanPasses k scan)
    (he : scanEvent (s.enterRepeat k scan.number.toNat scan.label) k (clampScan scan) =
      (Ev.ofScan u scan.label, r)) :
    takeScan src kind scan s = .next (u.closeEvent.sendVerdict src
      { u.closeEvent.verdictOf kind (clampScan scan) r with
        candidate := 0, position := none, kingpin := 0, axle := 0 }) := by
  rw [takeScan_event hk h he, finishScan_closing rfl]
  rfl

/-- The plain verdict fields are those of every verdict from the record. -/
theorem State.verdictOf_plain (s : State) (kind : Byte) (scan : ScanFields) (r : VerdictResult) :
    { s.verdictOf kind scan r with candidate := 0, position := none, kingpin := 0, axle := 0 } =
      s.verdictOf kind scan r := by
  unfold State.verdictOf
  cases s.pallet? scan.label <;> rfl

/-- The label of a scan has a record before its repeat entry exactly when it has one after. -/
theorem State.pallet?_enterRepeat (s : State) (k : PlaceKind) (n : Nat) (l x : Label) :
    (s.enterRepeat k n l).pallet? x = s.pallet? x := rfl

theorem Table.get?_erase_of_none {α : Type} {tb : Table α} {j : Nat} (k : Nat)
    (h : tb.get? j = none) : (tb.erase k).get? j = none := by
  induction tb with
  | nil => rfl
  | cons e tb ih =>
    unfold Table.get? at h
    split at h
    · cases h
    · rename_i hj
      unfold Table.erase
      split
      · exact h
      · exact (if_neg hj).trans (ih h)

/-- No write of an event makes a record: a label without one has none after it. -/
theorem State.kept_lacks (l : Label) : Kept fun s => s.pallet? l = none where
  modPallet {s} k f h := by
    rw [State.pallet?_modPallet]
    split
    · rename_i e; rw [← e, h]; rfl
    · exact h
  dropPallet {s} k h := by
    exact Table.get?_erase_of_none k.toNat h
  modTrunk _ _ _ h := h
  removeTrunk t h := by unfold State.removeTrunk; split <;> exact h
  counter h := h
  claimUp _ _ h := h
  claimDown _ h := h
  hold _ _ h := h
  handOver t d _ h := by unfold State.handOver; dsimp only; split <;> exact h
  unplaceNext _ _ _ h := h
  movers _ h := h
  freeList _ h := h
  queues _ h := h
  lastMove _ _ h := h
  countBurst q _ h := by unfold State.countBurst; dsimp only; split <;> exact h
  modCondition _ _ _ h := h
  placeOwn _ _ _ h := by rw [State.pallet?_placeOwn]; exact h
  giveResult {s} due r x h := by
    obtain ⟨_, _, _, _, _, e⟩ := State.giveResult_eq (s := s) due r x
    rw [e]; exact h

theorem State.pallet?_closeEvent_of_none {l : Label} (h : s.pallet? l = none) :
    s.closeEvent.pallet? l = none :=
  (State.kept_lacks l).reportMoversShort ((State.kept_lacks l).grantAttempt
    ((State.kept_lacks l).reportLanePressure h))

/-- A scan of a label without a record that writes nothing but its repeat entry is answered its result
alone (R7). -/
theorem takeScan_ofUnknown {src : Address} {kind : Byte} {scan : ScanFields} {k : PlaceKind}
    {r : VerdictResult} (hl : s.pallet? scan.label = none) (hk : placeKindOf kind = some k)
    (h : s.ScanPasses k scan)
    (he : scanEvent (s.enterRepeat k scan.number.toNat scan.label) k (clampScan scan) =
      (Ev.ofScan (s.enterRepeat k scan.number.toNat scan.label) scan.label, r)) :
    takeScan src kind scan s = .next
      ((s.enterRepeat k scan.number.toNat scan.label).closeEvent.sendVerdict src
        { echoKind := kind, echo := clampScan scan, result := r }) := by
  have hclosed : (s.enterRepeat k scan.number.toNat scan.label).closeEvent.pallet? scan.label = none :=
    State.pallet?_closeEvent_of_none hl
  rw [takeScan_plain hk h he, State.verdictOf_plain, State.verdictOf,
    show (clampScan scan).label = scan.label from rfl, hclosed]

/-- A scan of a label without a record, at a place other than an intake door (R7). -/
theorem scanEvent_ofUnknown {k : PlaceKind} {scan : ScanFields} (hl : s.pallet? scan.label = none)
    (hk : k ≠ .intake) : scanEvent s k scan = (Ev.ofScan s scan.label, .unknownPallet) := by
  rw [scanEvent, hl]
  exact if_neg hk

/-- An INTAKE scan of a label without a record, with the table full (R12). -/
theorem scanEvent_ofFull {scan : ScanFields} (hl : s.pallet? scan.label = none)
    (hfull : 4096 ≤ s.pallets.length) :
    scanEvent s .intake scan = (Ev.ofScan s scan.label, .tableFull) := by
  rw [scanEvent, hl]
  exact if_pos hfull

/-- Settles O19: the event of such a scan writes the repeat entry alone, and closing it makes no
record. -/
theorem scanOfUnknownLabelIsAnsweredUnknown : Obligations.ScanOfUnknownLabelIsAnsweredUnknown := by
  intro s src scan hl answer
  refine ⟨fun h => ?_, fun h => ?_, fun h => ?_, fun h hfull => ?_⟩
  · rw [exec_laneScan]; exact takeScan_ofUnknown hl rfl h (scanEvent_ofUnknown hl nofun)
  · rw [exec_loadScan]; exact takeScan_ofUnknown hl rfl h (scanEvent_ofUnknown hl nofun)
  · rw [exec_reworkScan]; exact takeScan_ofUnknown hl rfl h (scanEvent_ofUnknown hl nofun)
  · rw [exec_intakeScan]; exact takeScan_ofUnknown hl rfl h (scanEvent_ofFull hl hfull)

end Sys2Proof.Machine

/-! Terminal frames (section 6.4), by the mover's state. -/

namespace Sys2Proof.Machine

variable {s t : State}

/-! ## A move that goes back to its queue (R106) -/

/-- A move as it stands back in its queue. -/
def Move.returned (mv : Move) : Move :=
  { mv with
    state := .queued, mover := none, overdue := false, acceptDeadline := none, doneDeadline := none }

/-- The live move of pallet `p` back at the front of its queue. -/
def State.returned (s : State) (p : Pallet) (mv : Move) : State :=
  (s.modPallet p.label fun p => { p with move := some mv.returned }).setQueue mv.queue
    (p.label :: s.queue mv.queue)

/-- What mover `m` holds: move `n`, which is the live move `mv` of pallet `p`. -/
structure State.Holds (s : State) (m n : Nat) (p : Pallet) (mv : Move) : Prop where
  current : (s.mover m).move = some n
  found : s.palletOfMove n = some p
  record : s.pallet? p.label = some p
  live : p.move = some mv

namespace State.Holds

variable {m n : Nat} {p : Pallet} {mv : Move}

theorem giveBack_eq (h : s.Holds m n p mv) : s.giveBack m = s.returned p mv := by
  have hmove : s.move? p.label = some mv := by rw [State.move?, h.record]; exact h.live
  rw [State.giveBack, h.current, Option.bind_some, h.found]
  dsimp only
  rw [State.returnMove, hmove]
  rfl

theorem returnAndFree_eq (h : s.Holds m n p mv) : s.returnAndFree m = (s.returned p mv).freeMover m := by
  rw [State.returnAndFree, h.giveBack_eq]

end State.Holds

/-! ## SIGN_ON and SIGN_OFF (R109, R110) -/

theorem State.mover_withAddress (s : State) (m : Nat) (a : Option Address) :
    ((s.modMover m fun r => { r with address := a }).mover m).state = (s.mover m).state := by
  rcases State.mover_modMover_cases s m m fun r => { r with address := a } with h | ⟨-, h⟩ <;> rw [h]

/-- SIGN_ON by the mover's state (R109). -/
theorem State.signOn_eq (s : State) (src : Address) (m : Nat) : s.signOn src m =
    let u := s.modMover m fun r => { r with address := some src }
    match (s.mover m).state with
    | .off | .silent => u.freeMover m
    | .free => u
    | .offered | .busy => u.returnAndFree m := by
  unfold State.signOn
  dsimp only
  rw [State.mover_withAddress]
  cases (s.mover m).state <;> rfl

theorem takeTerminal_ofNoMover {mover : Byte} {rule : Nat → State → State}
    (hm : isMoverNumber mover.toNat = false) : takeTerminal mover rule s = .next s := by
  unfold takeTerminal
  simp [hm]

/-- Settles O26, by the mover's state. -/
theorem moverSignsOnAndOff : Obligations.MoverSignsOnAndOff := by
  intro s src mover hr m u free off
  have hon := exec_signOn (s := s) src mover
  have hoff := exec_signOff (s := s) mover
  refine ⟨fun hm => ?_, fun hm => ⟨hon.trans (takeTerminal_ofNoMover hm),
    hoff.trans (takeTerminal_ofNoMover hm)⟩⟩
  have on : exec (.signOn src mover) s = .next (s.signOn src m).closeEvent :=
    hon.trans (takeTerminal_closing hr hm)
  have out : exec (.signOff mover) s = .next (s.signOff m).closeEvent :=
    hoff.trans (takeTerminal_closing hr hm)
  have hfree (v : State) : free v = v.freeMover m := rfl
  have hidle (v : State) : off v = v.idleMover m .off := rfl
  clear_value free off
  simp only [on, out, State.signOn_eq, State.signOff, hfree, hidle]
  refine ⟨?_, fun h => ?_, ?_, fun h => ?_, ?_, ?_⟩
  · rintro (h | h) <;> rw [h]
  · rw [h]
  · rintro (h | h) <;> rw [h] <;> rfl
  · rw [h]
  · rintro (h | h) <;> rw [h]
  · rintro (h | h) <;> rw [h]

/-! ## ACCEPT (R111, R115) -/

theorem State.atLastSecond_of (h : s.clock.running = true → s.clock.value ≠ 86399) :
    s.atLastSecond = false := by
  unfold State.atLastSecond
  cases hc : s.clock.running
  · rfl
  · simpa [Config.lastSecond] using h hc

/-- ACCEPT of the offered move, its done deadline not reached as it is armed. -/
theorem State.Holds.acceptMove_eq {m n : Nat} {p : Pallet} {mv : Move} (h : s.Holds m n p mv)
    (hc : s.clock.running = true → s.clock.value ≠ 86399) : s.acceptMove m n =
      (s.modPallet p.label fun p => { p with move := some { mv with
        state := .accepted, acceptDeadline := none
        doneDeadline := some (min (s.clock.value + s.limits.doneTimeout) 86399) } }).modMover m
        fun x => { x with state := .busy } := by
  have hlast := State.atLastSecond_of hc
  have hpallet := State.modPallet_congr (f := fun p => { p with move := p.move.map fun mv =>
      { mv with
        state := .accepted, acceptDeadline := none
        doneDeadline := some (s.deadlineIn s.limits.doneTimeout) } })
    (g := fun p => { p with move := some { mv with
      state := .accepted, acceptDeadline := none
      doneDeadline := some (min (s.clock.value + s.limits.doneTimeout) 86399) } })
    (s := s) (l := p.label) (p := p) h.record (by simp only [h.live]; rfl)
  have hlate : (State.modMover (s.modPallet p.label fun p => { p with move := p.move.map fun mv =>
      { mv with
        state := .accepted, acceptDeadline := none
        doneDeadline := some (s.deadlineIn s.limits.doneTimeout) } }) m
      fun r => { r with state := .busy }).atLastSecond = false := hlast
  rw [← hpallet]
  unfold State.acceptMove
  simp only [h.found, hlate, Bool.false_eq_true, if_false]

/-- Settles O27, by the mover's state and the move it holds. -/
theorem acceptTakesTheOfferedMove : Obligations.AcceptTakesTheOfferedMove := by
  intro s mover n hr hm m cancel
  have ha : exec (.accept mover n) s = .next (s.acceptFrame m n.toNat).closeEvent :=
    (exec_accept s mover n).trans (takeTerminal_closing hr hm)
  have hholds : s.holdsMove m n.toNat = decide ((s.mover m).move = some n.toNat) := rfl
  rw [ha, State.acceptFrame, hholds]
  refine ⟨fun p mv hs hn hp hq hv hc => ?_, ?_, fun hs hn => ?_, fun hs => ?_, fun hs => ?_,
    fun hs => ?_⟩
  · have h : s.Holds m n.toNat p mv := ⟨hn, hp, hq, hv⟩
    rw [hs, decide_eq_true hn, if_pos rfl, h.acceptMove_eq hc]
  · rintro (hs | hs) hn <;> rw [hs, decide_eq_false hn] <;> rfl
  · rw [hs, decide_eq_true hn]; rfl
  · rw [hs]
  · rw [hs]
  · rw [hs]

/-! ## DECLINE and ABANDON (R112, R113) -/

/-- Settles O28, by the mover's state and the move it holds. -/
theorem declineAndAbandonGiveTheMoveBack : Obligations.DeclineAndAbandonGiveTheMoveBack := by
  intro s mover n hr hm m
  have hd : exec (.decline mover n) s = .next (s.declineFrame m n.toNat).closeEvent :=
    (exec_decline s mover n).trans (takeTerminal_closing hr hm)
  have ha : exec (.abandon mover n) s = .next (s.abandonFrame m n.toNat).closeEvent :=
    (exec_abandon s mover n).trans (takeTerminal_closing hr hm)
  have hholds : s.holdsMove m n.toNat = decide ((s.mover m).move = some n.toNat) := rfl
  rw [hd, ha, State.declineFrame, State.abandonFrame, hholds]
  refine ⟨fun p mv hn hp hq hv => ?_, fun hs => ?_, ?_, fun hs => ?_⟩
  · intro back
    have hback : back = (s.returned p mv).freeMover m := rfl
    clear_value back
    have h : s.Holds m n.toNat p mv := ⟨hn, hp, hq, hv⟩
    rw [decide_eq_true hn, h.returnAndFree_eq, hback]
    refine ⟨fun hs => ?_, ?_⟩
    · rw [hs]; rfl
    · rintro (hs | hs) <;> rw [hs] <;> rfl
  · rw [hs]; exact ⟨rfl, rfl⟩
  · rintro (hs | hs | ⟨hs, hn⟩)
    · rw [hs]; exact ⟨rfl, rfl⟩
    · rw [hs]; exact ⟨rfl, rfl⟩
    · rw [decide_eq_false hn]
      cases hx : (s.mover m).state
      case silent => exact absurd hx hs
      all_goals exact ⟨rfl, rfl⟩
  · rw [hs]

end Sys2Proof.Machine

/-! What the writes of an event leave (shapes of the named updates), its hand-ons, and the intake's
routing (section 1.5). -/

namespace Sys2Proof.Machine

variable {s t u : State}

/-! ## Tables written twice -/

theorem Table.adjust_adjust {α : Type} (tb : Table α) (k : Nat) (f g : α → α) :
    (tb.adjust k f).adjust k g = tb.adjust k fun x => g (f x) := by
  induction tb with
  | nil => rfl
  | cons e tb ih =>
    simp only [Table.adjust]
    split
    · exact if_pos ‹_›
    · exact (if_neg ‹_›).trans (congrArg _ ih)

theorem State.modPallet_modPallet (s : State) (l : Label) (f g : Pallet → Pallet) :
    (s.modPallet l f).modPallet l g = s.modPallet l fun p => g (f p) := by
  unfold State.modPallet
  rw [Table.adjust_adjust]

theorem State.modTrunk_modTrunk (s : State) (k : Nat) (f g : Trunk → Trunk) :
    (s.modTrunk k f).modTrunk k g = s.modTrunk k fun r => g (f r) := by
  unfold State.modTrunk
  rw [Table.adjust_adjust]

theorem State.modTrunk_congr {k : Nat} {f g : Trunk → Trunk} {r : Trunk}
    (hr : s.trunk? k = some r) (h : f r = g r) : s.modTrunk k f = s.modTrunk k g := by
  unfold State.modTrunk
  rw [Table.adjust_congr hr h]

/-- A changed record, where there is one. -/
theorem State.pallet?_modPallet_self {l : Label} {p : Pallet} (h : s.pallet? l = some p)
    (f : Pallet → Pallet) : (s.modPallet l f).pallet? l = some (f p) := by
  rw [State.pallet?_modPallet, if_pos rfl, h, Option.map_some]

theorem State.trunk?_modTrunk_self {k : Nat} {r : Trunk} (h : s.trunk? k = some r)
    (f : Trunk → Trunk) : (s.modTrunk k f).trunk? k = some (f r) := by
  rw [State.trunk?_modTrunk, if_pos rfl, h, Option.map_some]

/-! ## What a move's end and a claim's release write -/

/-- A move taken off a label writes that record, and the parts of the move arbiter. -/
theorem State.takeMove_eq (s : State) (l : Label) (c : Bool) : ∃ f ms fl qs y, s.takeMove l c =
    { s with pallets := s.pallets.adjust l.toNat fun p => { p with move := none }
             floor := f, yard := y, movers := ms, freeList := fl, queues := qs } := by
  rw [← s.pallets_takeMove l c]
  have hfree (u : State) (m : Nat) : ∃ ms fl, u.freeMover m = { u with movers := ms, freeList := fl } := by
    unfold State.freeMover
    dsimp only
    split <;> exact ⟨_, _, rfl⟩
  have hof (u : State) (mv : Move) (c : Bool) : ∃ f y ms fl, u.freeMoverOf mv c =
      { u with floor := f, yard := y, movers := ms, freeList := fl } := by
    unfold State.freeMoverOf
    split
    · exact ⟨u.floor, u.yard, u.movers, u.freeList, rfl⟩
    · rename_i m _
      split
      · obtain ⟨f, y, h⟩ := u.sendDirective_eq m (.cancel m mv.number)
        obtain ⟨ms, fl, k⟩ := hfree (u.sendDirective m (.cancel m mv.number)) m
        rw [k, h]
        exact ⟨f, y, ms, fl, rfl⟩
      · obtain ⟨ms, fl, k⟩ := hfree u m
        exact ⟨u.floor, u.yard, ms, fl, k⟩
  unfold State.takeMove
  split
  · exact ⟨s.floor, s.movers, s.freeList, s.queues, s.yard, rfl⟩
  · dsimp only
    split
    · exact ⟨s.floor, s.movers, s.freeList, _, s.yard, rfl⟩
    all_goals
      rename_i mv _ _ _
      obtain ⟨f, y, ms, fl, k⟩ := hof (s.modPallet l fun p => { p with move := none }) mv _
      rw [k]
      exact ⟨f, ms, fl, s.queues, y, rfl⟩

/-- A claim's release writes that record and the doors' counts. -/
theorem State.releaseClaim_shape (s : State) (l : Label) :
    ∃ ps ds, s.releaseClaim l = { s with pallets := ps, doors := ds } := by
  unfold State.releaseClaim
  split
  · exact ⟨s.pallets, s.doors, rfl⟩
  · exact ⟨_, _, rfl⟩

/-- The record of another label after a claim's release, and the released one's. -/
theorem State.pallet?_releaseClaim {l : Label} {p : Pallet} (h : s.pallet? l = some p) :
    ∃ q, (s.releaseClaim l).pallet? l = some q ∧ q.state = p.state := by
  rw [State.releaseClaim_eq h]
  cases p.claimDoor with
  | none => exact ⟨p, h, rfl⟩
  | some e => exact ⟨_, State.pallet?_modPallet_self (s := s.modDoor e _) h _, rfl⟩

theorem State.pallet?_takeMove {l : Label} {p : Pallet} (h : s.pallet? l = some p) (c : Bool) :
    (s.takeMove l c).pallet? l = some { p with move := none } := by
  unfold State.pallet?
  rw [State.pallets_takeMove, Table.get?_adjust, if_pos rfl]
  exact congrArg (Option.map fun p : Pallet => { p with move := none }) h

/-! ## Hand-ons -/

/-- Passes that hand on no more than their reports, and an attempt, where one follows, that releases
nothing. -/
theorem drain_handsOn {e : Ev} (n : Nat) {ds : List Nat} {served : Option Nat} {ts : List Nat}
    {ws : List Work} {u : State}
    (hw : e.work = ds.map (fun d => .pass d served) ++ ts.map .attempt ++ ws) (hrun : e.running = [])
    (hag : e.again = []) (hd : e.deferDoor = none) (hp : e.s.passesAlone served ds)
    (ht : ts = [] ∨ ∃ t, ts = [t] ∧ (e.s.afterPasses ds).attemptEnds t)
    (hu : drain n { e with work := ws, s := e.s.afterPasses ds } = some u) :
    drain (n + 131 + 2 * ds.length) e = some u := by
  rw [drain_passes_alone (n + 131) ds (hw.trans (List.append_assoc ..)) hd hp]
  rcases ht with rfl | ⟨t, rfl, h⟩
  · exact drain_mono hu (by omega)
  · exact drain_attempt_ends n rfl hrun hag hd h hu

theorem eventBound_ge {n : Nat} (h : n ≤ 10000) : n ≤ Config.eventBound :=
  h.trans (by decide)

/-- The end of a scan's event: it closes, and the verdict is sent. -/
theorem drain_scanEnd {e : Ev} {src : Address} {kind : Byte} {scan : ScanFields} {r : VerdictResult}
    (hw : e.work = closing ++ [.verdict src kind scan r]) : drain 4 e =
      some (e.s.closeEvent.sendVerdict src { e.s.closeEvent.verdictOf kind scan r with
        candidate := e.candidate, position := e.position, kingpin := e.kingpin, axle := e.axle }) := by
  rw [drain_closing 1 e [.verdict src kind scan r] hw, drain_of_cons 0 rfl]
  have hend (f : Ev) (hf : f.work = []) : drain 0 (f.perform (.verdict src kind scan r)) =
      some (f.verdict src kind scan r).s := drain_of_nil 0 hf
  rw [hend _ rfl]
  simp only [Ev.verdict, State.closeEvent]

/-- A scan's event whose passes hand on no more than their reports and whose attempt, where it makes
one, releases nothing. -/
theorem finishScan_handsOn {src : Address} {kind : Byte} {scan : ScanFields} {x : Ev × VerdictResult}
    {ds : List Nat} {served : Option Nat} {ts : List Nat}
    (hw : x.1.work = ds.map (fun d => .pass d served) ++ ts.map .attempt) (hrun : x.1.running = [])
    (hag : x.1.again = []) (hd : x.1.deferDoor = none) (hp : x.1.s.passesAlone served ds)
    (ht : ts = [] ∨ ∃ t, ts = [t] ∧ (x.1.s.afterPasses ds).attemptEnds t) (hn : ds.length ≤ 1000) :
    finishScan src kind scan x = .next ((x.1.s.afterPasses ds).closeEvent.sendVerdict src
      { (x.1.s.afterPasses ds).closeEvent.verdictOf kind scan x.2 with
        candidate := x.1.candidate, position := x.1.position
        kingpin := x.1.kingpin, axle := x.1.axle }) := by
  obtain ⟨e, r⟩ := x
  have hwork : e.work ++ closing ++ [.verdict src kind scan r] =
      ds.map (fun d => .pass d served) ++ ts.map .attempt ++ (closing ++ [.verdict src kind scan r]) := by
    rw [← hw, List.append_assoc]
  exact runEvent_of_drain (drain_handsOn (e := { e with work := _ }) 4 hwork hrun hag hd hp ht
    (drain_scanEnd rfl)) (eventBound_ge (by omega))

end Sys2Proof.Machine

/-! Intake scans and PROBE (chapter 1, sections 1.5 and 1.6): routing, the check-in of a written
record, and its booking. -/

namespace Sys2Proof.Machine

variable {s t u : State}

/-! ## What routing reads (R25, R66) -/

/-- Two states with the parts that routing and the choice of a trunk read alike. -/
structure State.RoutesAs (s u : State) : Prop where
  bank0 : u.bank0 = s.bank0
  bank1 : u.bank1 = s.bank1
  active : u.active = s.active
  classes : u.classes = s.classes
  trunks : u.trunks = s.trunks

namespace State.RoutesAs

theorem trans (h : s.RoutesAs t) (k : t.RoutesAs u) : s.RoutesAs u :=
  ⟨k.bank0.trans h.bank0, k.bank1.trans h.bank1, k.active.trans h.active,
    k.classes.trans h.classes, k.trunks.trans h.trunks⟩

theorem testCandidate (h : s.RoutesAs u) (p : Pallet) (k : Nat) :
    u.testCandidate p k = s.testCandidate p k := by
  unfold State.testCandidate State.trunk? State.classOf
  rw [h.trunks, h.classes]

theorem chooseFrom (h : s.RoutesAs u) (p : Pallet) (ks : List Nat) : ∀ i spill,
    u.chooseFrom p ks i spill = s.chooseFrom p ks i spill := by
  induction ks with
  | nil => intro i spill; rfl
  | cons k ks ih => intro i spill; simp only [State.chooseFrom, h.testCandidate, ih]

theorem admission (h : s.RoutesAs u) (p : Pallet) : u.admission p = s.admission p := by
  simp only [State.admission, State.bank, State.choose, h.bank0, h.bank1, h.active, h.chooseFrom]

theorem raise (s : State) (c : CondName) (x : Subject) : s.RoutesAs (s.raise c x) := by
  obtain ⟨_, _, _, h⟩ := s.raise_eq c x
  rw [h]
  exact ⟨rfl, rfl, rfl, rfl, rfl⟩

theorem report (s : State) (c : CondName) (x : Option Subject) : s.RoutesAs (s.report c x) := by
  obtain ⟨_, _, _, h⟩ := s.report_eq c x
  rw [h]
  exact ⟨rfl, rfl, rfl, rfl, rfl⟩

theorem takeMove (s : State) (l : Label) (c : Bool) : s.RoutesAs (s.takeMove l c) := by
  obtain ⟨_, _, _, _, _, h⟩ := s.takeMove_eq l c
  rw [h]
  exact ⟨rfl, rfl, rfl, rfl, rfl⟩

theorem releaseClaim (s : State) (l : Label) : s.RoutesAs (s.releaseClaim l) := by
  obtain ⟨_, _, h⟩ := s.releaseClaim_shape l
  rw [h]
  exact ⟨rfl, rfl, rfl, rfl, rfl⟩

theorem modPallet (s : State) (l : Label) (f : Pallet → Pallet) : s.RoutesAs (s.modPallet l f) :=
  ⟨rfl, rfl, rfl, rfl, rfl⟩

theorem addPallet (s : State) (p : Pallet) : s.RoutesAs (s.addPallet p) :=
  ⟨rfl, rfl, rfl, rfl, rfl⟩

theorem enterRepeat (s : State) (k : PlaceKind) (n : Nat) (l : Label) :
    s.RoutesAs (s.enterRepeat k n l) := ⟨rfl, rfl, rfl, rfl, rfl⟩

end State.RoutesAs

/-- The choice does not read a pallet's state. -/
theorem State.choose_withState (s : State) (p : Pallet) (x : PalletState) (ks : List Nat) :
    s.choose { p with state := x } ks = s.choose p ks := by
  have h : ∀ ks i spill, s.chooseFrom { p with state := x } ks i spill = s.chooseFrom p ks i spill := by
    intro ks
    induction ks with
    | nil => intro i spill; rfl
    | cons k ks ih =>
      intro i spill
      have hk : s.testCandidate { p with state := x } k = s.testCandidate p k := rfl
      simp only [State.chooseFrom, hk, ih]
  exact h ks 1 false

theorem State.admission_withState (s : State) (p : Pallet) (x : PalletState) :
    s.admission { p with state := x } = s.admission p := by
  unfold State.admission
  dsimp only
  split <;> try rfl
  rename_i d f ks _
  rw [s.choose_withState { p with depot := some d } x ks]

/-! ## The check-in of a written record (R13, R14) -/

/-- The state after the weight check of record `q` of label `l`: OVERWEIGHT and WEIGHT above the type's
limit (R13). -/
def State.weighed (s : State) (l : Label) (q : Pallet) : State :=
  if decide (q.typeLimit < q.measured) then
    (s.modPallet l fun p => { p with flags := { p.flags with overweight := true } }).raise .weight (.label l)
  else s

/-- The depot and FALLBACK that routing stores (R14). -/
def State.routed (s : State) (l : Label) (depot : Option Nat) (fallback : Bool) : State :=
  s.modPallet l fun p => { p with depot := depot, flags := { p.flags with fallback := fallback } }

/-- A record after the weight check. -/
def Pallet.weighed (q : Pallet) : Pallet :=
  { q with flags := { q.flags with overweight := q.flags.overweight || decide (q.typeLimit < q.measured) } }

/-- A record after the weight check and routing. -/
def Pallet.routed (q : Pallet) (depot : Option Nat) (fallback : Bool) : Pallet :=
  { q.weighed with depot := depot, flags := { q.weighed.flags with fallback := fallback } }

theorem State.RoutesAs.weighed (s : State) (l : Label) (q : Pallet) : s.RoutesAs (s.weighed l q) := by
  unfold State.weighed
  split
  · exact (State.RoutesAs.modPallet ..).trans (State.RoutesAs.raise ..)
  · exact ⟨rfl, rfl, rfl, rfl, rfl⟩

theorem State.pallet?_weighed {l : Label} {q : Pallet} (h : s.pallet? l = some q) :
    (s.weighed l q).pallet? l = some q.weighed := by
  unfold State.weighed Pallet.weighed
  cases hw : decide (q.typeLimit < q.measured)
  · rw [Bool.or_false]; exact h
  · rw [Bool.or_true, if_pos rfl, State.pallet?_raise]
    exact State.pallet?_modPallet_self h _

theorem State.pallet?_routed {l : Label} {q : Pallet} (h : s.pallet? l = some q)
    (depot : Option Nat) (fallback : Bool) :
    ((s.weighed l q).routed l depot fallback).pallet? l = some (q.routed depot fallback) :=
  State.pallet?_modPallet_self (State.pallet?_weighed h) _

section
variable {e : Ev} {l : Label} {q : Pallet}

theorem checkIn_unsafe (h : e.s.pallet? l = some q) (hw : 1500 < q.measured) :
    e.checkIn l = ({ e with s := e.s.failIntake l .unsafeWeight .weight }, .unsafeWeight) := by
  unfold Ev.checkIn
  rw [h]
  exact if_pos hw

theorem checkIn_safe (h : e.s.pallet? l = some q) (hw : q.measured ≤ 1500) : e.checkIn l =
    match e.s.admission q with
    | .fails depot fallback reason =>
        ({ e with s := ((e.s.weighed l q).routed l depot fallback).failIntake l reason .unrouted },
          reason.verdict)
    | .books depot fallback c =>
        let x := ({ e with s := (e.s.weighed l q).routed l (some depot) fallback } : Ev).book
          (q.routed (some depot) fallback) c
        (x.1.push x.2, .booked) := by
  unfold Ev.checkIn
  rw [h]
  dsimp only
  rw [if_neg (Nat.not_lt.2 hw), ← (State.RoutesAs.weighed e.s l q).admission q]
  show (match (e.s.weighed l q).admission q with | .fails .. => _ | .books .. => _) = _
  cases (e.s.weighed l q).admission q with
  | fails depot fallback reason => rfl
  | books depot fallback c =>
    dsimp only
    have hp : ((e.s.weighed l q).modPallet l fun p => { p with
        depot := some depot, flags := { p.flags with fallback := fallback } }).pallet? l =
        some (q.routed (some depot) fallback) := State.pallet?_routed h _ _
    show (match State.pallet? ((e.s.weighed l q).modPallet l fun p => { p with
        depot := some depot, flags := { p.flags with fallback := fallback } }) l with
      | none => _ | some p => _) = _
    rw [hp]
    rfl

end

/-! ## The booking (R61, R67) -/

/-- The booking of pallet `p` by choice `c` (R61). -/
def State.newBooking (s : State) (p : Pallet) (c : Choice) : Booking :=
  { label := p.label, drop := c.drop, quarters := p.quarters, kg := p.bookingKg, seq := s.bookingCounter }

/-- A trunk's record after a booking joins it, its pallet at the tail of the held list (R62 to R64). -/
def Trunk.book (r : Trunk) (b : Booking) : Trunk :=
  { r.join b with held := r.held.filter (· ≠ b.label) ++ [b.label] }

/-- A pallet's record after its booking (R67). -/
def Pallet.book (p : Pallet) (c : Choice) : Pallet :=
  { p with
    trunk := some c.trunk, drop := some c.drop, state := .held
    flags := { p.flags with spill := c.spill } }

theorem State.makeBooking_eq (s : State) (p : Pallet) (c : Choice) : s.makeBooking p c =
    { s with
      bookingCounter := sequenceAfter s.bookingCounter
      trunks := s.trunks.adjust c.trunk (·.book (s.newBooking p c))
      pallets := s.pallets.adjust p.label.toNat (·.book c) } := by
  unfold State.makeBooking
  show State.modPallet (State.modTrunk (State.modTrunk _ c.trunk _) c.trunk _) p.label _ = _
  rw [State.modTrunk_modTrunk]
  rfl

theorem State.pallet?_makeBooking {p q : Pallet} {c : Choice} (h : s.pallet? p.label = some q) :
    (s.makeBooking p c).pallet? p.label = some (q.book c) := by
  rw [State.makeBooking_eq]
  exact State.pallet?_modPallet_self h _

/-- A carry-over leaves trunk, drop and flags of every record. -/
theorem State.pallet?_carryOver {l : Label} {p : Pallet} (h : s.pallet? l = some p) (k d : Nat) :
    ∃ x, (s.carryOver k d l).pallet? l = some { p with state := x } := by
  unfold State.carryOver
  rw [h]
  dsimp only
  split
  · exact ⟨.staged, State.pallet?_modPallet_self (s := s.leaveHeld k l) h _⟩
  · exact ⟨p.state, h⟩

/-- What a booking in an event leaves of its pallet's record, and the candidate index it shows. -/
theorem book_record {e : Ev} {p : Pallet} {l : Label} (c : Choice) (hl : p.label = l)
    (h : e.s.pallet? l = some p) :
    (e.book p c).1.candidate = (if e.scanned = some l then c.index else e.candidate) ∧
      ∃ x, (e.book p c).1.s.pallet? l = some { p.book c with state := x } := by
  subst hl
  have hbook := State.pallet?_makeBooking (c := c) h
  have hcarry (d : Nat) := State.pallet?_carryOver hbook c.trunk d
  unfold Ev.book
  dsimp only
  split
  · exact ⟨rfl, .held, hbook⟩
  · rename_i d _
    repeat' split
    all_goals exact ⟨rfl, hcarry d⟩

/-! ## PROBE (R17) -/

/-- The reasons an intake ends in are no booking. -/
theorem Reason.verdict_ne_booked (r : Reason) : r.verdict ≠ .booked := by
  cases r <;> nofun

/-- The check-in of an intake record gives the result that PROBE evaluates for it. -/
theorem probeRecord_checkIn {e : Ev} {scan : ScanFields} {x : PalletState} (kind : Byte)
    (he : e.scanned = some scan.label) (hr : s.RoutesAs e.s)
    (hq : e.s.pallet? scan.label = some { s.intakeRecord scan with state := x }) :
    (s.probeRecord kind scan).result = (e.checkIn scan.label).2 ∧
      ((s.probeRecord kind scan).result = .booked →
        (s.probeRecord kind scan).candidate = (e.checkIn scan.label).1.candidate ∧
        ∃ p, (e.checkIn scan.label).1.s.pallet? scan.label = some p ∧
          (s.probeRecord kind scan).trunk = p.trunk ∧ (s.probeRecord kind scan).drop = p.drop ∧
          (s.probeRecord kind scan).flags = p.flags) := by
  obtain ⟨q, hqe⟩ : ∃ q, q = { s.intakeRecord scan with state := x } := ⟨_, rfl⟩
  rw [← hqe] at hq
  by_cases hw : 1500 < (s.intakeRecord scan).measured
  · have hprobe : s.probeRecord kind scan =
        { echoKind := kind, echo := scan, result := .unsafeWeight, state := some .exception } := if_pos hw
    rw [checkIn_unsafe hq (by rw [hqe]; exact hw), hprobe]
    exact ⟨rfl, nofun⟩
  · have hprobe : s.probeRecord kind scan = _ := if_neg hw
    have hadmission : e.s.admission q = s.admission (s.intakeRecord scan) := by
      rw [hr.admission, hqe, s.admission_withState]
    rw [checkIn_safe hq (by rw [hqe]; exact Nat.not_lt.1 hw), hadmission, hprobe]
    cases s.admission (s.intakeRecord scan) with
    | fails depot fallback reason => exact ⟨rfl, fun h => absurd h reason.verdict_ne_booked⟩
    | books depot fallback c =>
      obtain ⟨hc, y, hy⟩ := book_record c (l := scan.label)
        (e := { e with s := (e.s.weighed scan.label q).routed scan.label (some depot) fallback })
        (p := q.routed (some depot) fallback) (by rw [hqe]; rfl) (State.pallet?_routed hq (some depot) fallback)
      refine ⟨rfl, fun _ => ⟨(hc.trans (if_pos he)).symm, _, hy, rfl, rfl, ?_⟩⟩
      rw [hqe]
      rfl

theorem reIntake_eq (s : State) (p : Pallet) (scan : ScanFields) : reIntake s p scan =
    let u := ((s.withdrawMove p.label).releaseClaim p.label).modPallet p.label fun q =>
      { s.intakeRecord scan with label := p.label, state := q.state }
    let x := (Ev.ofScan u p.label).checkIn p.label
    ({ x.1 with work := x.1.work ++ p.claimDoor.toList.map fun d => Work.pass d none }, x.2) := by
  have hclock : ((s.withdrawMove p.label).releaseClaim p.label).clock = s.clock := by
    obtain ⟨_, _, h⟩ := (s.withdrawMove p.label).releaseClaim_shape p.label
    obtain ⟨_, _, _, _, _, k⟩ := s.takeMove_eq p.label true
    rw [h, State.withdrawMove, k]
  unfold reIntake
  have hrec : ((s.withdrawMove p.label).releaseClaim p.label).intakeRecord scan = s.intakeRecord scan := by
    unfold State.intakeRecord
    rw [hclock]
  dsimp only
  rw [hrec]

theorem State.pallet?_addPallet (s : State) (p : Pallet) : (s.addPallet p).pallet? p.label = some p :=
  (Table.get?_put s.pallets p.label.toNat p _).trans (if_pos rfl)

theorem intakeNew_full {scan : ScanFields} (h : 4096 ≤ s.pallets.length) :
    intakeNew s scan = (Ev.ofScan s scan.label, .tableFull) := if_pos h

theorem intakeNew_room {scan : ScanFields} (h : s.pallets.length < 4096) : intakeNew s scan =
    (Ev.ofScan (s.addPallet (s.intakeRecord scan)).reportCount scan.label).checkIn scan.label :=
  if_neg (Nat.not_le.2 h)

/-- PROBE of an intake door and right digits, by the label's record (R17). -/
theorem State.probe_eq {scan : ScanFields} (hp : placeInRange .intake scan.number.toNat = true)
    (hd : digitsPass scan = true) : s.probe 0 scan =
      match s.pallet? scan.label with
      | none =>
          if 4096 ≤ s.pallets.length then
            { echoKind := 0, echo := clampScan scan, result := .tableFull }
          else s.probeRecord 0 (clampScan scan)
      | some p =>
          if p.state.offPath then s.probeRecord 0 (clampScan scan)
          else s.verdictOf 0 (clampScan scan) .duplicateLabel := by
  unfold State.probe
  rw [hp, hd, if_neg (by decide), if_neg (by decide)]
  rfl

/-- Settles O22: PROBE and the check-in of the intake record read the same routing, and each leaves
the other way out to the same case of the label's record. -/
theorem probeGivesTheResultOfTheIntake : Obligations.ProbeGivesTheResultOfTheIntake := by
  refine fun s scan => ⟨fun h => (exec_probe ..).trans (takeRequest_record h rfl), fun hp hd hl => ?_⟩
  intro entered x
  have hx : x = scanEvent entered .intake (clampScan scan) := rfl
  clear_value x
  have hlabel : (clampScan scan).label = scan.label := rfl
  have hrecord : entered.intakeRecord (clampScan scan) = s.intakeRecord (clampScan scan) := rfl
  have hentered : s.RoutesAs entered := State.RoutesAs.enterRepeat ..
  rw [State.probe_eq hp hd]
  rw [scanEvent, hlabel, show entered.pallet? scan.label = s.pallet? scan.label from rfl] at hx
  cases hs : s.pallet? scan.label with
  | none =>
    rw [hs] at hx
    replace hx : x = intakeNew entered (clampScan scan) := hx
    dsimp only
    by_cases hfull : 4096 ≤ s.pallets.length
    · rw [hx, intakeNew_full (s := entered) hfull, if_pos hfull]
      exact ⟨rfl, nofun⟩
    · rw [hx, intakeNew_room (s := entered) (Nat.not_le.1 hfull), if_neg hfull, hrecord]
      refine probeRecord_checkIn 0 (x := .held) rfl (hentered.trans
        ((State.RoutesAs.addPallet ..).trans (State.RoutesAs.report ..))) ?_
      exact (State.pallet?_report ..).trans (State.pallet?_addPallet ..)
  | some p =>
    rw [hs] at hx
    replace hx : x = intakeKnown entered p (clampScan scan) := hx
    dsimp only
    cases hoff : p.state.offPath
    · rw [hx, intakeKnown, hoff]
      refine ⟨?_, ?_⟩
      · simp only [State.verdictOf, hlabel, hs]; rfl
      · simp only [State.verdictOf, hlabel, hs]; nofun
    · have hpl : p.label = scan.label := hl p hs
      obtain ⟨q, hq, -⟩ := State.pallet?_releaseClaim
        (State.pallet?_takeMove (s := entered) (l := p.label) (p := p) (by rw [hpl]; exact hs) true)
      rw [hx, intakeKnown, hoff, if_pos rfl, if_pos rfl, reIntake_eq, hrecord]
      have hcheck := probeRecord_checkIn (s := s) (scan := clampScan scan) (x := q.state) 0
        (e := Ev.ofScan (((entered.withdrawMove p.label).releaseClaim p.label).modPallet p.label fun q =>
          { s.intakeRecord (clampScan scan) with label := p.label, state := q.state }) p.label)
        (congrArg some hpl) (hentered.trans ((State.RoutesAs.takeMove ..).trans
          ((State.RoutesAs.releaseClaim ..).trans (State.RoutesAs.modPallet ..)))) ?_
      · rw [hlabel, ← hpl] at hcheck
        rw [← hpl]
        exact hcheck
      · rw [hlabel, ← hpl]
        refine (State.pallet?_modPallet_self hq _).trans ?_
        rw [hpl]
        rfl

end Sys2Proof.Machine

/-! Intake scans, whole (sections 1.5, 4.1 to 4.3 and 8.1). -/

namespace Sys2Proof.Machine

variable {s t u : State}

/-! ## Nothing to grant (R116) -/

/-- With no free mover beside a waiting move a grant attempt changes nothing. -/
theorem State.grantAttempt_calm (h : s.NothingToGrant) : s.grantAttempt = s := by
  refine State.grants_of_none (h.imp_right fun hq => ?_) _
  have hmove (q : Nat) : s.hasMove q = false := by
    unfold State.hasMove
    by_cases hlt : q < 49
    · rw [hq q hlt]; rfl
    · have hout : s.queue q = [] := by simp [State.queue, Vector.getD, hlt]
      rw [hout]; rfl
  unfold State.chooseQueue
  simp [hmove]

/-! ## The lookup at intake (R25) -/

theorem Bank.lookup_noRoute {b : Bank} {zone : ZoneCode} {cls : ServiceClass}
    (h : ∀ z e, zoneValue zone = some z → e ∈ b.zones → ¬(e.first ≤ z ∧ z ≤ e.last)) :
    b.lookup zone cls = .noRoute := by
  unfold Bank.lookup
  have hnone : ((zoneValue zone).bind fun z => b.zones.find? (·.contains z)) = none := by
    cases hz : zoneValue zone with
    | none => rfl
    | some z =>
      rw [Option.bind_some, List.find?_eq_none]
      intro e he hc
      exact h z e hz he (by simpa [ZoneEntry.contains] using hc)
  rw [hnone]

/-- The outcome of a lookup by the row of its depot (R25). -/
def RouteOutcome.ofRow (depot : Nat) : Option (List Nat × Bool) → RouteOutcome
  | none => .noTrunk depot
  | some (row, fallback) => .found depot fallback row

/-- The entry of a bank that contains a zone is the one the lookup finds. -/
theorem Bank.lookup_entry {b : Bank} {zone : ZoneCode} {cls : ServiceClass} {z : Nat} {e : ZoneEntry}
    (hb : b.within) (hz : zoneValue zone = some z) (he : e ∈ b.zones) (h1 : e.first ≤ z)
    (h2 : z ≤ e.last) : b.lookup zone cls =
      if e.hold then .zoneHeld else .ofRow e.depot (b.rowFor cls e.depot) := by
  have hfind : b.zones.find? (·.contains z) = some e := by
    obtain ⟨x, hx⟩ := Option.isSome_iff_exists.1 (List.find?_isSome (p := fun e : ZoneEntry => e.contains z)
      |>.2 ⟨e, he, by simp [ZoneEntry.contains, h1, h2]⟩)
    have hc := List.find?_some hx
    have hm := List.mem_of_find?_eq_some hx
    simp only [ZoneEntry.contains, Bool.and_eq_true, decide_eq_true_eq] at hc
    have hsame : x = e := by
      by_contra hne
      have hap := List.pairwise_iff_getElem.1 hb.apart
      obtain ⟨i, hi, rfl⟩ := List.getElem_of_mem hm
      obtain ⟨j, hj, rfl⟩ := List.getElem_of_mem he
      rcases Nat.lt_trichotomy i j with hij | hij | hij
      · have := hap i j hi hj hij; omega
      · subst hij; exact hne rfl
      · have := hap j i hj hi hij; omega
    rw [hx, hsame]
  unfold Bank.lookup
  rw [hz, Option.bind_some, hfind]
  dsimp only
  cases b.rowFor cls e.depot <;> rfl

/-- The code of a service class (section 2.1). -/
theorem ServiceClass.code_eq (c : ServiceClass) : c.code = match c with
    | .standard => 0
    | .priority => 1
    | .am => 2
    | .timed => 3 := by
  cases c <;> rfl

theorem ServiceClass.code_eq_zero (c : ServiceClass) : c.code = 0 ↔ c = .standard := by
  cases c <;> decide

theorem Bank.rowFor_own {b : Bank} {cls : ServiceClass} {depot : Nat} {row : List Nat}
    (h : b.rows.get? (cls.code * 256 + depot) = some row) : b.rowFor cls depot = some (row, false) := by
  rw [Bank.rowFor, rowSlot, h]

/-- Without a row of its own a class other than 0 is served by the base row, marked as the fallback
(R25, R27). -/
theorem Bank.rowFor_base {b : Bank} {cls : ServiceClass} {depot : Nat}
    (h : b.rows.get? (cls.code * 256 + depot) = none) : b.rowFor cls depot =
      if cls.code = 0 then none else (b.rows.get? depot).map fun row => (row, true) := by
  rw [Bank.rowFor, rowSlot, h, rowSlot, Nat.zero_mul, Nat.zero_add]
  exact if_congr cls.code_eq_zero.symm rfl rfl

/-- What an intake record is admitted as, by the lookup's outcome (R14). -/
def State.admissionOf (s : State) (p : Pallet) : RouteOutcome → Admission
  | .noRoute => .fails none false .noRoute
  | .zoneHeld => .fails none false .zoneHeld
  | .noTrunk depot => .fails (some depot) false .noTrunk
  | .found depot fallback row =>
      match s.choose { p with depot := some depot } row with
      | none => .fails (some depot) fallback .noTrunk
      | some c => .books depot fallback c

theorem State.admission_ofLookup (s : State) (p : Pallet) {x : RouteOutcome}
    (h : (s.bank s.active).lookup p.zone p.cls = x) : s.admission p = s.admissionOf p x := by
  subst h
  unfold State.admission State.admissionOf
  cases (s.bank s.active).lookup p.zone p.cls <;> rfl

/-- The second part of O20. -/
theorem admission_byLookup (s : State) (p : Pallet) :
    let b := s.bank s.active
    let found (x : RouteOutcome) (a : Admission) : Prop :=
      b.lookup p.zone p.cls = x ∧ s.admission p = a
    ((∀ z e, zoneValue p.zone = some z → e ∈ b.zones → ¬(e.first ≤ z ∧ z ≤ e.last)) →
      found .noRoute (.fails none false .noRoute)) ∧
    ∀ z e, b.within → zoneValue p.zone = some z → e ∈ b.zones → e.first ≤ z → z ≤ e.last →
      let own := b.rows.get? (p.cls.code * 256 + e.depot)
      let base := b.rows.get? e.depot
      let follows (row : List Nat) (fallback : Bool) : Prop :=
        (s.choose { p with depot := some e.depot } row = none →
          found (.found e.depot fallback row) (.fails (some e.depot) fallback .noTrunk)) ∧
        ∀ c, s.choose { p with depot := some e.depot } row = some c →
          found (.found e.depot fallback row) (.books e.depot fallback c)
      (e.hold = true → found .zoneHeld (.fails none false .zoneHeld)) ∧
      (e.hold = false →
        (own = none → p.cls.code = 0 ∨ base = none →
          found (.noTrunk e.depot) (.fails (some e.depot) false .noTrunk)) ∧
        (∀ row, own = some row → follows row false) ∧
        (∀ row, own = none → p.cls.code ≠ 0 → base = some row → follows row true)) := by
  intro b found
  have both {x : RouteOutcome} (h : b.lookup p.zone p.cls = x) : found x (s.admissionOf p x) :=
    ⟨h, s.admission_ofLookup p h⟩
  refine ⟨fun h => both (Bank.lookup_noRoute h), fun z e hb hz he h1 h2 => ?_⟩
  intro own base follows
  have hlookup := Bank.lookup_entry (cls := p.cls) hb hz he h1 h2
  have hfollows {row : List Nat} {f : Bool} (h : b.lookup p.zone p.cls = .found e.depot f row) :
      follows row f := by
    refine ⟨fun hn => ⟨h, ?_⟩, fun c hc => ⟨h, ?_⟩⟩
    · rw [s.admission_ofLookup p h, State.admissionOf, hn]
    · rw [s.admission_ofLookup p h, State.admissionOf, hc]
  refine ⟨fun hh => both (by rw [hlookup, hh]; rfl), fun hh => ?_⟩
  rw [hh, if_neg (by decide)] at hlookup
  refine ⟨fun ho h0 => both ?_, fun row ho => hfollows ?_, fun row ho h0 hbase => hfollows ?_⟩
  · rw [hlookup, Bank.rowFor_base ho]
    rcases h0 with h0 | h0
    · rw [if_pos h0]; rfl
    · rw [show b.rows.get? e.depot = none from h0]
      split <;> rfl
  · rw [hlookup, Bank.rowFor_own ho]; rfl
  · rw [hlookup, Bank.rowFor_base ho, if_neg h0, show b.rows.get? e.depot = some row from hbase]; rfl

/-! ## A booking from an apron (R67) -/

/-- What a booking of a pallet on an apron hands on: the pass at the trunk's door, and the attempt where
its loading drop changes (R67). -/
def Trunk.handsOnBooking (r : Trunk) (k : Nat) (b : Booking) : List Work :=
  match r.door? with
  | none => []
  | some d =>
      if r.activeDoor?.isSome && (r.book b).loadingDrop ≠ r.loadingDrop then
        [.pass d (some k), .attempt k]
      else [.pass d none]

theorem State.trunk?_makeBooking {p : Pallet} {c : Choice} {r : Trunk} (hr : s.trunk? c.trunk = some r) :
    (s.makeBooking p c).trunk? c.trunk = some (r.book (s.newBooking p c)) := by
  rw [State.makeBooking_eq]
  exact State.trunk?_modTrunk_self hr _

/-- A pallet that is not in the lane of door `d` is not carried over there. -/
theorem State.carryOver_elsewhere {l : Label} {p : Pallet} {d : Nat} (h : s.pallet? l = some p)
    (hl : p.location ≠ .lane d) (k : Nat) : s.carryOver k d l = s := by
  rw [State.carryOver, h]
  exact if_neg (by simp [Pallet.carriesOver, hl])

theorem book_apron {e : Ev} {p : Pallet} {c : Choice} {r : Trunk} {n : Nat}
    (hp : e.s.pallet? p.label = some p) (hr : e.s.trunk? c.trunk = some r) (hl : p.location = .apron n)
    (hd : e.deferDoor = none) : e.book p c =
      ({ e with
        s := e.s.makeBooking p c
        candidate := if e.scanned = some p.label then c.index else e.candidate },
      r.handsOnBooking c.trunk (e.s.newBooking p c)) := by
  have hbook := State.pallet?_makeBooking (c := c) hp
  have htrunk := State.trunk?_makeBooking (p := p) hr
  have hlane (d : Nat) : (p.book c).location ≠ .lane d := by
    rw [show (p.book c).location = p.location from rfl, hl]; nofun
  have hcarry (d : Nat) := State.carryOver_elsewhere hbook (hlane d) c.trunk
  have hnot (d : Nat) : ((e.s.makeBooking p c).pallet? p.label).any (·.carriesOver d) = false := by
    rw [hbook]; simp [Pallet.carriesOver, hlane]
  have hdoor : (r.book (e.s.newBooking p c)).door? = r.door? := rfl
  have hactive : (r.book (e.s.newBooking p c)).activeDoor? = r.activeDoor? := rfl
  unfold Ev.book Trunk.handsOnBooking
  dsimp only
  rw [htrunk, Option.bind_some, hdoor]
  cases r.door? with
  | none => rfl
  | some d =>
    have hchanged : decide (some (r.book (e.s.newBooking p c)).loadingDrop ≠ some r.loadingDrop) =
        decide ((r.book (e.s.newBooking p c)).loadingDrop ≠ r.loadingDrop) := by
      simp only [ne_eq, Option.some.injEq]
    simp only [hcarry, hnot, htrunk, hr, hd, hactive, Option.bind_some, Option.map_some,
      Bool.false_or, reduceCtorEq, if_false, hchanged]
    cases r.activeDoor?.isSome && decide ((r.book (e.s.newBooking p c)).loadingDrop ≠ r.loadingDrop) <;> rfl

/-- A booking of a record routed at check-in, as one change of the checked state. -/
theorem State.makeBooking_routed {l : Label} {q : Pallet} (c : Choice) {depot : Nat} {fallback : Bool}
    (hq : s.pallet? l = some q) (hl : q.label = l) :
    ((s.weighed l q).routed l (some depot) fallback).makeBooking (q.routed (some depot) fallback) c =
      { s.weighed l q with
        bookingCounter := sequenceAfter (s.weighed l q).bookingCounter
        trunks := (s.weighed l q).trunks.adjust c.trunk (·.book ((s.weighed l q).newBooking q c))
        pallets := (s.weighed l q).pallets.adjust l.toNat
          fun _ => (q.routed (some depot) fallback).book c } := by
  have hw := State.pallet?_weighed hq
  rw [State.makeBooking_eq]
  show ({ s.weighed l q with
    bookingCounter := _, trunks := _
    pallets := ((s.weighed l q).pallets.adjust l.toNat _).adjust q.label.toNat _ } : State) = _
  rw [hl, Table.adjust_adjust, Table.adjust_congr hw (g := fun _ => (q.routed (some depot) fallback).book c)
    rfl]
  rfl

/-! ## The event of an intake's check-in -/

/-- The verdict fields other than the candidate index are those of every verdict from the record. -/
theorem State.verdictOf_candidate (s : State) (kind : Byte) (scan : ScanFields) (r : VerdictResult)
    (i : Nat) : { s.verdictOf kind scan r with
      candidate := i, position := none, kingpin := 0, axle := 0 } =
      { s.verdictOf kind scan r with candidate := i } := by
  unfold State.verdictOf
  cases s.pallet? scan.label <;> rfl

/-- What answers a scan whose event ended in state `t`: it closes, and the verdict is sent with the
candidate index. -/
def State.answerIntake (t : State) (src : Address) (echo : ScanFields) (r : VerdictResult) (i : Nat) :
    Host.Outcome State Fault Refusal :=
  .next (t.closeEvent.sendVerdict src { t.closeEvent.verdictOf 0 echo r with candidate := i })

theorem finishScan_intake {e : Ev} {src : Address} {echo : ScanFields} {r : VerdictResult}
    {ds : List Nat} {served : Option Nat} {ts : List Nat}
    (hw : e.work = ds.map (fun d => .pass d served) ++ ts.map .attempt) (hrun : e.running = [])
    (hag : e.again = []) (hd : e.deferDoor = none) (hpos : e.position = none) (hk : e.kingpin = 0)
    (ha : e.axle = 0) (hp : e.s.passesAlone served ds)
    (ht : ts = [] ∨ ∃ t, ts = [t] ∧ (e.s.afterPasses ds).attemptEnds t) (hn : ds.length ≤ 1000) :
    finishScan src 0 echo (e, r) = (e.s.afterPasses ds).answerIntake src echo r e.candidate := by
  rw [finishScan_handsOn (x := (e, r)) hw hrun hag hd hp ht hn, State.answerIntake,
    ← State.verdictOf_candidate]
  simp only [hpos, hk, ha]

/-- An intake that ends in EXCEPTION, as one REWORK move after the condition (R13, R14, R141). -/
theorem State.failIntake_eq {l : Label} {q : Pallet} (h : s.pallet? l = some q) (hm : q.move = none)
    (reason : Reason) (c : CondName) : s.failIntake l reason c =
      (((s.modPallet l fun p => { p with state := .exception, reason := some reason }).raise c
        (.label l)).makeMove l .rework q.location .rework 0) := by
  have hq : ((s.enterException l reason).raise c (.label l)).pallet? l =
      some { q with state := .exception, reason := some reason } := by
    rw [State.pallet?_raise]
    exact State.pallet?_modPallet_self h _
  rw [State.failIntake, State.queueRework, hq]
  exact if_neg (by rw [hm]; nofun)

end Sys2Proof.Machine

/-! Intake scans that write a record (R12 to R16), and what their events come to. -/

namespace Sys2Proof.Machine

variable {s t u : State}

theorem scanEvent_known {k : PlaceKind} {scan : ScanFields} {p : Pallet}
    (h : s.pallet? scan.label = some p) : scanEvent s k scan = scanKnown s k p scan := by
  rw [scanEvent, h]

theorem scanEvent_new {scan : ScanFields} (h : s.pallet? scan.label = none) :
    scanEvent s .intake scan = intakeNew s scan := by
  rw [scanEvent, h]
  exact if_pos rfl

theorem State.releaseClaim_ofNone {l : Label} {p : Pallet} (h : s.pallet? l = some p)
    (hc : p.claimDoor = none) : s.releaseClaim l = s := by
  rw [State.releaseClaim_eq h, hc]

/-! ## The written record -/

/-- An intake scan has written the record of its label in state `written`, which is then checked in. -/
structure State.IntakeWrites (s : State) (src : Address) (scan : ScanFields) (written : State)
    (q : Pallet) : Prop where
  event : exec (.intakeScan src scan) s =
    finishScan src 0 (clampScan scan) ((Ev.ofScan written scan.label).checkIn scan.label)
  record : written.pallet? scan.label = some q
  fields : ∃ x, q = { s.intakeRecord (clampScan scan) with state := x }
  routes : s.RoutesAs written
  counter : written.bookingCounter = s.bookingCounter

/-- The state in which a new label's record is written and counted (R12). -/
def State.recorded (s : State) (scan : ScanFields) : State :=
  ((s.enterRepeat .intake scan.number.toNat scan.label).addPallet
    (s.intakeRecord (clampScan scan))).reportCount

/-- The state in which the record of a label off its path is written again (R15). -/
def State.rerecorded (s : State) (scan : ScanFields) : State :=
  ((s.enterRepeat .intake scan.number.toNat scan.label).withdrawMove scan.label).modPallet scan.label
    fun q => { s.intakeRecord (clampScan scan) with state := q.state }

theorem State.intakeWrites_new {src : Address} {scan : ScanFields} (h : s.ScanPasses .intake scan)
    (hl : s.pallet? scan.label = none) (hroom : s.pallets.length < 4096) :
    s.IntakeWrites src scan (s.recorded scan) (s.intakeRecord (clampScan scan)) where
  event := by
    rw [exec_intakeScan, takeScan_passes (kind := 0) rfl h, scanEvent_new
        (s := s.enterRepeat .intake scan.number.toNat scan.label) (scan := clampScan scan) hl,
      intakeNew_room (s := s.enterRepeat .intake scan.number.toNat scan.label) hroom]
    rfl
  record := (State.pallet?_report ..).trans (State.pallet?_addPallet _ (s.intakeRecord (clampScan scan)))
  fields := ⟨.held, rfl⟩
  routes := (State.RoutesAs.enterRepeat ..).trans
    ((State.RoutesAs.addPallet ..).trans (State.RoutesAs.report ..))
  counter := by
    obtain ⟨_, _, _, e⟩ := State.report_eq (s := (s.enterRepeat .intake scan.number.toNat
      scan.label).addPallet (s.intakeRecord (clampScan scan))) .tableHigh _
    rw [State.recorded, State.reportCount, e]
    rfl

theorem State.intakeWrites_again {src : Address} {scan : ScanFields} {p : Pallet}
    (h : s.ScanPasses .intake scan) (hp : s.pallet? scan.label = some p) (hl : p.label = scan.label)
    (hc : p.claimDoor = none) (hoff : p.state.offPath = true) :
    s.IntakeWrites src scan (s.rerecorded scan)
      { s.intakeRecord (clampScan scan) with state := p.state } where
  event := by
    have hagain : intakeKnown (s.enterRepeat .intake scan.number.toNat scan.label) p (clampScan scan) =
        reIntake (s.enterRepeat .intake scan.number.toNat scan.label) p (clampScan scan) := if_pos hoff
    have hclaim : ((s.enterRepeat .intake scan.number.toNat scan.label).withdrawMove
        p.label).releaseClaim p.label =
        (s.enterRepeat .intake scan.number.toNat scan.label).withdrawMove p.label :=
      State.releaseClaim_ofNone (State.pallet?_takeMove
        (s := s.enterRepeat .intake scan.number.toNat scan.label) (by rw [hl]; exact hp) true) hc
    rw [exec_intakeScan, takeScan_passes (kind := 0) rfl h, scanEvent_known
      (s := s.enterRepeat .intake scan.number.toNat scan.label) (scan := clampScan scan) hp, scanKnown,
      hagain, reIntake_eq, hclaim, hc, hl]
    dsimp only
    rw [Option.toList_none, List.map_nil, List.append_nil]
    rfl
  record := State.pallet?_modPallet_self (State.pallet?_takeMove
    (s := s.enterRepeat .intake scan.number.toNat scan.label) hp true) _
  fields := ⟨p.state, rfl⟩
  routes := (State.RoutesAs.enterRepeat ..).trans
    ((State.RoutesAs.takeMove ..).trans (State.RoutesAs.modPallet ..))
  counter := by
    obtain ⟨_, _, _, _, _, e⟩ := State.takeMove_eq (s.enterRepeat .intake scan.number.toNat scan.label)
      scan.label true
    rw [State.rerecorded, State.withdrawMove, e]
    rfl

/-! ## Its check-in -/

section
variable {src : Address} {scan : ScanFields} {written : State} {q : Pallet}

theorem State.bookingCounter_weighed (s : State) (l : Label) (q : Pallet) :
    (s.weighed l q).bookingCounter = s.bookingCounter := by
  unfold State.weighed
  split
  · obtain ⟨_, _, _, e⟩ := State.raise_eq (s := s.modPallet l fun p =>
      { p with flags := { p.flags with overweight := true } }) .weight (.label l)
    rw [e]
    rfl
  · rfl

/-- An intake above the heaviest safe weight (R13). -/
theorem State.IntakeWrites.unsafeWeight (h : s.IntakeWrites src scan written q) (hw : 1500 < q.measured) :
    exec (.intakeScan src scan) s = ((((written.modPallet scan.label fun p =>
      { p with state := .exception, reason := some .unsafeWeight }).raise .weight
        (.label scan.label)).makeMove scan.label .rework (.apron scan.number.toNat) .rework 0)).answerIntake
          src (clampScan scan) .unsafeWeight 0 := by
  obtain ⟨x, hx⟩ := h.fields
  rw [h.event, checkIn_unsafe (e := Ev.ofScan written scan.label) h.record hw,
    show (Ev.ofScan written scan.label).s = written from rfl, State.failIntake_eq h.record (by rw [hx]; rfl), hx]
  exact finishScan_intake (ds := []) (served := none) (ts := []) rfl rfl rfl rfl rfl rfl rfl trivial (.inl rfl)
    (by simp)

/-- An intake that no trunk takes (R14). -/
theorem State.IntakeWrites.fails {depot : Option Nat} {fallback : Bool} {reason : Reason}
    (h : s.IntakeWrites src scan written q) (hw : q.measured ≤ 1500)
    (ha : s.admission (s.intakeRecord (clampScan scan)) = .fails depot fallback reason) :
    exec (.intakeScan src scan) s = (((((written.weighed scan.label q).modPallet scan.label fun p =>
      { p with
        depot := depot, flags := { p.flags with fallback := fallback }
        state := .exception, reason := some reason }).raise .unrouted (.label scan.label)).makeMove
          scan.label .rework (.apron scan.number.toNat) .rework 0)).answerIntake
            src (clampScan scan) reason.verdict 0 := by
  obtain ⟨x, hx⟩ := h.fields
  have hadmission : written.admission q = .fails depot fallback reason := by
    rw [h.routes.admission, hx, s.admission_withState, ha]
  have hrouted := State.pallet?_routed h.record depot fallback
  rw [h.event, checkIn_safe (e := Ev.ofScan written scan.label) h.record hw,
    show (Ev.ofScan written scan.label).s = written from rfl, hadmission]
  dsimp only
  rw [State.failIntake_eq (s := (written.weighed scan.label q).routed scan.label depot fallback) hrouted
    (by rw [hx]; rfl), State.routed, State.modPallet_modPallet,
    show (q.routed depot fallback).location = .apron scan.number.toNat by rw [hx]; rfl]
  exact finishScan_intake (ds := []) (served := none) (ts := []) rfl rfl rfl rfl rfl rfl rfl trivial (.inl rfl)
    (by simp)

/-- The state after the booking of an intake's record by choice `c` (R67). -/
def State.bookedFrom (v : State) (l : Label) (q : Pallet) (c : Choice) : State :=
  { v with
    bookingCounter := sequenceAfter v.bookingCounter
    trunks := v.trunks.adjust c.trunk (·.book (v.newBooking q c))
    pallets := v.pallets.adjust l.toNat fun _ => q.book c }

/-- An intake that a trunk takes (R67). -/
theorem State.IntakeWrites.books {depot : Nat} {fallback : Bool} {c : Choice} {r : Trunk}
    {ds : List Nat} {served : Option Nat} {ts : List Nat}
    (h : s.IntakeWrites src scan written q) (hw : q.measured ≤ 1500)
    (ha : s.admission (s.intakeRecord (clampScan scan)) = .books depot fallback c)
    (hr : s.trunk? c.trunk = some r)
    (hwork : r.handsOnBooking c.trunk (s.newBooking q c) =
      ds.map (fun d => .pass d served) ++ ts.map .attempt) (hn : ds.length ≤ 1000)
    (hp : ((written.weighed scan.label q).bookedFrom scan.label
      (q.routed (some depot) fallback) c).passesAlone served ds)
    (ht : ts = [] ∨ ∃ t, ts = [t] ∧ (((written.weighed scan.label q).bookedFrom scan.label
      (q.routed (some depot) fallback) c).afterPasses ds).attemptEnds t) :
    exec (.intakeScan src scan) s = (((written.weighed scan.label q).bookedFrom scan.label
      (q.routed (some depot) fallback) c).afterPasses ds).answerIntake src (clampScan scan) .booked
        c.index := by
  obtain ⟨x, hx⟩ := h.fields
  have hlabel : q.label = scan.label := by rw [hx]; rfl
  have hadmission : written.admission q = .books depot fallback c := by
    rw [h.routes.admission, hx, s.admission_withState, ha]
  have hrouted := State.pallet?_routed h.record (some depot) fallback
  have hbooked := State.makeBooking_routed c (depot := depot) (fallback := fallback) h.record hlabel
  have hcounter : ((written.weighed scan.label q).routed scan.label (some depot) fallback).newBooking
      (q.routed (some depot) fallback) c = s.newBooking q c := by
    unfold State.newBooking
    rw [show State.bookingCounter (State.routed _ _ _ _) = _ from State.bookingCounter_weighed .., h.counter]
    rfl
  have htrunk : ((written.weighed scan.label q).routed scan.label (some depot) fallback).trunk? c.trunk =
      some r := by
    rw [← hr]
    unfold State.trunk?
    rw [← h.routes.trunks, ← (State.RoutesAs.weighed written scan.label q).trunks]
    rfl
  have hbook := book_apron (e := { Ev.ofScan written scan.label with
      s := (written.weighed scan.label q).routed scan.label (some depot) fallback })
    (p := q.routed (some depot) fallback) (c := c) (n := scan.number.toNat)
    (by rw [show (q.routed (some depot) fallback).label = q.label from rfl, hlabel]; exact hrouted)
    htrunk (by rw [hx]; rfl) rfl
  rw [h.event, checkIn_safe (e := Ev.ofScan written scan.label) h.record hw,
    show (Ev.ofScan written scan.label).s = written from rfl, hadmission]
  dsimp only
  rw [show (Ev.book _ _ _ : Ev × List Work) = _ from hbook]
  dsimp only
  rw [hcounter, hwork, hbooked]
  refine (finishScan_intake (ds := ds) (served := served) (ts := ts) (List.append_nil _) rfl rfl rfl rfl rfl
    rfl hp ht hn).trans ?_
  rw [show (if (Ev.ofScan written scan.label).scanned = some (q.routed (some depot) fallback).label
    then c.index else (Ev.ofScan written scan.label).candidate) = c.index from if_pos (congrArg some hlabel.symm)]
  rfl

end

end Sys2Proof.Machine

/-! What an intake's booking leaves, and the statements about intake scans. -/

namespace Sys2Proof.Machine

variable {s t u : State}

theorem PalletType.limit_le (x : PalletType) : x.limit ≤ 1200 := by
  cases x <;> decide

/-- A record within its type's limit is not marked (R13). -/
theorem State.weighed_light {l : Label} {q : Pallet} (h : q.measured ≤ q.typeLimit) :
    s.weighed l q = s := if_neg (by simpa using h)

theorem Pallet.weighed_light {q : Pallet} (h : q.measured ≤ q.typeLimit) : q.weighed = q := by
  unfold Pallet.weighed
  rw [decide_eq_false (Nat.not_lt.2 h), Bool.or_false]

section
variable {src : Address} {scan : ScanFields} {written : State} {q : Pallet}

/-- The state after an intake's booking, by the trunk's record before it. -/
theorem State.IntakeWrites.bookedFrom_eq (h : s.IntakeWrites src scan written q) {c : Choice} {r : Trunk}
    (hr : s.trunk? c.trunk = some r) (p : Pallet) (hp : p.label = q.label) (hq : p.quarters = q.quarters)
    (hk : p.bookingKg = q.bookingKg) :
    (written.weighed scan.label q).bookedFrom scan.label p c =
      { written.weighed scan.label q with
        bookingCounter := sequenceAfter s.bookingCounter
        trunks := (written.weighed scan.label q).trunks.adjust c.trunk fun _ => r.book (s.newBooking q c)
        pallets := (written.weighed scan.label q).pallets.adjust scan.label.toNat fun _ => p.book c } := by
  have hcounter := (State.bookingCounter_weighed written scan.label q).trans h.counter
  have hnew : (written.weighed scan.label q).newBooking p c = s.newBooking q c := by
    unfold State.newBooking
    rw [hcounter, hp, hq, hk]
  have htrunk : (written.weighed scan.label q).trunks.get? c.trunk = some r := by
    rw [(State.RoutesAs.weighed written scan.label q).trunks, h.routes.trunks]
    exact hr
  rw [State.bookedFrom, hcounter, hnew, Table.adjust_congr htrunk (g := fun _ => r.book (s.newBooking q c)) rfl]

end

/-! ## What the booking hands on (R67) -/

theorem Trunk.handsOnBooking_unplaced {r : Trunk} (h : r.placement = .unplaced) (k : Nat) (b : Booking) :
    r.handsOnBooking k b = [] := by
  rw [Trunk.handsOnBooking, Trunk.door?, h]

theorem Trunk.handsOnBooking_pass {r : Trunk} {d : Nat} {b : Booking} (hd : r.door? = some d)
    (h : (∃ e, r.placement = .next e) ∨ (r.book b).loadingDrop = r.loadingDrop) (k : Nat) :
    r.handsOnBooking k b = [.pass d none] := by
  have hnot : (r.activeDoor?.isSome && decide ((r.book b).loadingDrop ≠ r.loadingDrop)) = false := by
    rcases h with ⟨e, he⟩ | h
    · rw [Trunk.activeDoor?, he]; rfl
    · rw [decide_eq_false (not_not.2 h), Bool.and_false]
  rw [Trunk.handsOnBooking, hd]
  dsimp only
  rw [hnot]
  rfl

theorem Trunk.handsOnBooking_attempt {r : Trunk} {d : Nat} {b : Booking} (hd : r.placement = .active d)
    (h : (r.book b).loadingDrop ≠ r.loadingDrop) (k : Nat) :
    r.handsOnBooking k b = [.pass d (some k), .attempt k] := by
  rw [Trunk.handsOnBooking, Trunk.door?, Trunk.activeDoor?, hd]
  dsimp only
  rw [decide_eq_true h]
  rfl

/-- Settles O20: the check-in books without a door's pass, and the admission follows the lookup case
by case. -/
theorem intakeBooksToAnUnplacedTrunk : Obligations.IntakeBooksToAnUnplacedTrunk := by
  refine ⟨?_, admission_byLookup⟩
  intro s src scan depot fallback c r echo type made h hl hroom hlight ha hr hp counted booking booked t
  have hw := State.intakeWrites_new (src := src) h hl hroom
  have hlight' : (s.intakeRecord (clampScan scan)).measured ≤ (s.intakeRecord (clampScan scan)).typeLimit :=
    hlight
  have hsafe : (s.intakeRecord (clampScan scan)).measured ≤ 1500 :=
    hlight'.trans ((PalletType.limit_le type).trans (by decide))
  have hbooked : ((s.recorded scan).weighed scan.label (s.intakeRecord (clampScan scan))).bookedFrom scan.label
      ((s.intakeRecord (clampScan scan)).routed (some depot) fallback) c = booked := by
    rw [State.weighed_light hlight', Pallet.routed, Pallet.weighed_light hlight', State.bookedFrom,
      hw.counter]
    unfold State.newBooking
    rw [hw.counter]
    rfl
  rw [hw.books hsafe ha hr (ds := []) (served := none) (ts := [])
    (Trunk.handsOnBooking_unplaced hp ..) (by simp) trivial (.inl rfl)]
  show ((State.bookedFrom _ _ _ _).answerIntake src (clampScan scan) .booked c.index) = _
  rw [hbooked]
  rfl

/-! ## Duplicates (R16) -/

theorem State.pallets_closeEvent (h : s.NothingToGrant) : s.closeEvent.pallets = s.pallets := by
  have hcalm : s.reportLanePressure.NothingToGrant :=
    h.same (State.report_freeList ..) (State.report_queues ..)
  rw [State.closeEvent, State.grantAttempt_calm hcalm]
  exact (State.report_pallets ..).trans (State.report_pallets ..)

/-- A pallet on the path of a booking is off every exception. -/
theorem PalletState.offPath_booked {x : PalletState} (h : x = .held ∨ x = .laneBound ∨ x = .staged ∨
    x = .loadBound ∨ x = .loaded) : x.offPath = false := by
  rcases h with rfl | rfl | rfl | rfl | rfl <;> rfl

theorem PalletState.offPath_exception {x : PalletState} (h : x = .exception ∨ x = .atRework ∨
    x = .misloaded) : x.offPath = true := by
  rcases h with rfl | rfl | rfl <;> rfl

theorem exec_intakeScan_duplicate {src : Address} {scan : ScanFields} {p : Pallet}
    (h : s.ScanPasses .intake scan) (hp : s.pallet? scan.label = some p) (hl : p.label = scan.label)
    (hs : p.state.offPath = false) :
    let t := ((s.enterRepeat .intake scan.number.toNat scan.label).raise .duplicate
      (.label scan.label)).closeEvent
    exec (.intakeScan src scan) s =
      .next (t.sendVerdict src (t.verdictOf 0 (clampScan scan) .duplicateLabel)) := by
  intro t
  have hknown : intakeKnown (s.enterRepeat .intake scan.number.toNat scan.label) p (clampScan scan) = _ :=
    if_neg (by rw [hs]; nofun)
  rw [exec_intakeScan, takeScan_plain (kind := 0) rfl h ((scanEvent_known
    (s := s.enterRepeat .intake scan.number.toNat scan.label) (scan := clampScan scan) hp).trans
    (hknown.trans (by rw [hl]))), State.verdictOf_plain]

theorem min_measured (kg : BitVec 16) :
    (if kg.toNat ≤ 2000 then kg else BitVec.ofNat 16 2000).toNat = min kg.toNat 2000 := by
  split
  · rw [min_eq_left ‹_›]
  · rw [min_eq_right (by omega)]; rfl

/-- A weight above the heaviest safe one stays so when clamped. -/
theorem unsafe_clamped {scan : ScanFields} (h : 1500 < scan.kg.toNat) :
    1500 < (clampScan scan).kg.toNat := by
  rw [show (clampScan scan).kg.toNat = min scan.kg.toNat 2000 from min_measured _]
  omega

/-- Settles O21, by the label's record, the weight, and the admission. -/
theorem intakeOfUnsafeOrBookedPallets : Obligations.IntakeOfUnsafeOrBookedPallets := by
  refine ⟨?_, ?_, ?_⟩
  · intro s src scan echo h hl hroom hkg entered counted failed t
    have hw := State.intakeWrites_new (src := src) h hl hroom
    refine ⟨?_, ?_⟩
    · rw [hw.unsafeWeight (unsafe_clamped hkg)]
      show State.answerIntake _ _ _ _ 0 = _
      rw [State.answerIntake, ← State.verdictOf_candidate, State.verdictOf_plain]
      rfl
    · have hrecord : counted.pallet? scan.label = _ := hw.record
      rw [hrecord]
      simp only [Option.any_some, decide_eq_true_eq]
      exact ⟨rfl, min_measured _, rfl⟩
  · intro s src scan p h hp hl hs t
    refine ⟨exec_intakeScan_duplicate h hp hl (PalletState.offPath_booked hs), fun hcalm => ?_⟩
    refine (State.pallets_closeEvent ?_).trans (State.raise_pallets ..)
    exact State.NothingToGrant.same hcalm (State.raise_freeList ..) (State.raise_queues ..)
  · intro s src scan p echo l type made entered again rewritten answer h
    have hanswer (t : State) (r : VerdictResult) (i : Nat) : answer t r i = t.answerIntake src echo r i := rfl
    have hagain (ha : again) : s.IntakeWrites src scan rewritten { made with state := p.state } :=
      State.intakeWrites_again h ha.1 ha.2.1 ha.2.2.1 (PalletState.offPath_exception ha.2.2.2)
    clear_value answer
    refine ⟨fun ha hkg => ?_, fun written hwr hkg => ?_⟩
    · rw [hanswer]
      exact (hagain ha).unsafeWeight (unsafe_clamped hkg)
    · intro heavy checked
      obtain ⟨q, x, hqx, hw⟩ : ∃ q x, q = { made with state := x } ∧ s.IntakeWrites src scan written q := by
        rcases hwr with ⟨hl, hroom, rfl⟩ | ⟨ha, rfl⟩
        · exact ⟨made, .held, rfl, State.intakeWrites_new h hl hroom⟩
        · exact ⟨_, p.state, rfl, hagain ha⟩
      have hkg' : q.measured ≤ 1500 := by rw [hqx]; exact hkg
      have hchecked : written.weighed scan.label q = checked := by rw [hqx]; rfl
      clear_value checked
      refine ⟨fun depot fallback reason had => ?_, fun depot fallback c r had hr => ?_⟩
      · rw [hanswer, hw.fails hkg' had, hchecked]
      · intro booking joined booked
        have hnew : s.newBooking q c = booking := by rw [hqx]; rfl
        have hjoined : r.book (s.newBooking q c) = joined := by rw [hnew]; rfl
        have hbooked : (written.weighed scan.label q).bookedFrom scan.label
            (q.routed (some depot) fallback) c = booked := by
          rw [hw.bookedFrom_eq hr (q.routed (some depot) fallback) rfl rfl rfl, hjoined, hchecked, hqx]
          rfl
        clear_value booked joined
        simp only [hanswer]
        refine ⟨fun hp => ?_, fun d hd hsame hp => ?_, fun d hd hdrop hp ht => ?_⟩
        · exact (hw.books hkg' had hr (ds := []) (served := none) (ts := [])
            (Trunk.handsOnBooking_unplaced hp ..) (by simp) trivial (.inl rfl)).trans (by rw [hbooked]; rfl)
        · exact (hw.books hkg' had hr (ds := [d]) (served := none) (ts := [])
            (Trunk.handsOnBooking_pass hd (by rw [hjoined]; exact hsame) _) (by simp)
            (by rw [hbooked]; exact ⟨hp, trivial⟩) (.inl rfl)).trans (by rw [hbooked]; rfl)
        · exact (hw.books hkg' had hr (ds := [d]) (served := some c.trunk) (ts := [c.trunk])
            (Trunk.handsOnBooking_attempt hd (by rw [hjoined]; exact hdrop) _) (by simp)
            (by rw [hbooked]; exact ⟨hp, trivial⟩)
            (.inr ⟨_, rfl, by rw [hbooked]; exact ht⟩)).trans (by rw [hbooked]; rfl)

end Sys2Proof.Machine

/-! The clock's report to the move arbiter (sections 3.1 and 6.5). -/

namespace Sys2Proof.Machine

variable {s t : State}

/-! ## A fold that one number changes -/

/-- A fold over numbers of which only `m` changes the state. -/
theorem foldl_single {f : State → Nat → State} {m : Nat} (hs : ∀ k, k ≠ m → f s k = s)
    (ht : ∀ k, k ≠ m → f t k = t) (hm : f s m = t) (ms : List Nat) (hn : ms.Nodup) (hmem : m ∈ ms) :
    ms.foldl f s = t := by
  have hquiet : ∀ ms : List Nat, m ∉ ms → ms.foldl f t = t := by
    intro ms
    induction ms with
    | nil => intro _; rfl
    | cons k ms ih =>
      intro hk
      rw [List.mem_cons, not_or] at hk
      rw [List.foldl_cons, ht k (Ne.symm hk.1), ih hk.2]
  induction ms with
  | nil => cases hmem
  | cons k ms ih =>
    rw [List.nodup_cons] at hn
    rw [List.foldl_cons]
    by_cases hk : k = m
    · subst hk
      rw [hm, hquiet ms hn.1]
    · rw [hs k hk, ih hn.2 (by simpa [Ne.symm hk] using hmem)]

theorem nodup_moverNumbers : moverNumbers.Nodup := by decide

theorem mem_moverNumbers (m : Nat) : m ∈ moverNumbers ↔ 1 ≤ m ∧ m ≤ 32 := by
  simp only [moverNumbers, List.mem_map, List.mem_range]
  exact ⟨fun ⟨i, hi, e⟩ => by omega, fun h => ⟨m - 1, by omega, by omega⟩⟩

/-- A number without a mover stands OFF. -/
theorem State.mover_outside (s : State) {m : Nat} (h : m ∉ moverNumbers) : (s.mover m).state = .off := by
  rw [mem_moverNumbers] at h
  unfold State.mover nth
  split
  · rfl
  · have hout : ¬m - 1 < 32 := by omega
    simp [Vector.getD, hout]

theorem State.mem_of_acceptReached {m : Nat} (h : s.acceptReached m = true) : m ∈ moverNumbers := by
  by_contra hm
  rw [State.acceptReached, s.mover_outside hm] at h
  cases h

theorem State.mem_of_doneReached {m : Nat} (h : s.doneReached m = true) : m ∈ moverNumbers := by
  by_contra hm
  rw [State.doneReached, s.mover_outside hm] at h
  cases h

theorem State.acceptReached_of_doneReached {m : Nat} (h : s.doneReached m = true) :
    s.acceptReached m = false := by
  unfold State.doneReached at h
  unfold State.acceptReached
  cases hs : (s.mover m).state <;> rw [hs] at h <;> first | rfl | cases h

/-! ## The report (R41) -/

/-- The state after the clock's report to the move arbiter (R41, R116). -/
def State.moversReported (s : State) : State :=
  if moverNumbers.any s.acceptReached then (moverNumbers.foldl State.moverDeadline s).closeEvent
  else moverNumbers.foldl State.moverDeadline s

theorem drain_moverDeadlines {e : Ev} {ms : List Nat} {ws : List Work} (n : Nat)
    (hw : e.work = .moverDeadlines ms :: ws) :
    drain (n + 1) e = drain n { e with work := ws, s := ms.foldl State.moverDeadline e.s } :=
  drain_of_cons n hw

theorem drain_moverReport {e : Ev} {ws : List Work} {u : State} (n : Nat)
    (hw : e.work = .moverReport :: ws)
    (hu : drain n { e with work := ws, s := e.s.moversReported } = some u) : drain (n + 5) e = some u := by
  have hreport : drain (n + 5) e = drain (n + 4) { e with
      work := .moverDeadlines moverNumbers ::
        ((if moverNumbers.any e.s.acceptReached then closing else []) ++ ws) } := by
    rw [drain_of_cons (n + 4) hw, Ev.perform, Ev.moverReport, Ev.push, List.cons_append]
  have hfold : drain (n + 5) e = drain (n + 3) { e with
      work := (if moverNumbers.any e.s.acceptReached then closing else []) ++ ws
      s := moverNumbers.foldl State.moverDeadline e.s } :=
    hreport.trans (drain_moverDeadlines (n + 3) rfl)
  rw [hfold]
  unfold State.moversReported at hu
  split at hu
  · rename_i h
    simp only [State.closeEvent] at hu
    rw [if_pos h, drain_closing n _ ws rfl, hu]
  · rename_i h
    rw [if_neg h]
    exact drain_mono hu (by omega)

theorem runEvent_moverReport (s : State) :
    runEvent { s := s, work := [.moverReport] } = .next s.moversReported :=
  runEvent_of_drain (drain_moverReport 0 rfl (drain_of_nil 0 rfl)) (eventBound_ge (by omega))

/-- With no reached deadline the report changes nothing. -/
theorem State.moverDeadline_quiet {m : Nat} (ha : s.acceptReached m = false) (hd : s.doneReached m = false) :
    s.moverDeadline m = s := by
  rw [State.moverDeadline, ha, hd]
  rfl

/-! ## Deadlines of the other movers -/

/-- A change of a record that keeps its move's number and reaches no deadline that was not reached. -/
structure Pallet.Calms (f : Pallet → Pallet) : Prop where
  number (p : Pallet) (n : Nat) :
    ((f p).move.any fun v => v.number == n) = p.move.any fun v => v.number == n
  accept (p : Pallet) (due : Nat → Bool) : ((f p).move.any fun v => v.acceptDeadline.any due) = true →
    (p.move.any fun v => v.acceptDeadline.any due) = true
  done (p : Pallet) (due : Nat → Bool) : ((f p).move.any fun v => v.doneDeadline.any due) = true →
    (p.move.any fun v => v.doneDeadline.any due) = true

theorem Pallet.calms_id : Pallet.Calms id := ⟨fun _ _ => rfl, fun _ _ h => h, fun _ _ h => h⟩

theorem Pallet.Calms.palletOfMove {f : Pallet → Pallet} (hf : Pallet.Calms f) (n k : Nat) (tb : Table Pallet) :
    ∃ g, Pallet.Calms g ∧ ((tb.adjust k f).find? fun e => e.2.move.any fun v => v.number == n).map Prod.snd =
      ((tb.find? fun e => e.2.move.any fun v => v.number == n).map Prod.snd).map g := by
  induction tb with
  | nil => exact ⟨id, Pallet.calms_id, rfl⟩
  | cons x tb ih =>
    obtain ⟨i, p⟩ := x
    obtain ⟨g, hg, e⟩ := ih
    rw [Table.adjust]
    split
    · rw [List.find?_cons, List.find?_cons]
      simp only [hf.number]
      cases p.move.any fun v => v.number == n
      · exact ⟨id, Pallet.calms_id, by rw [Option.map_id]; rfl⟩
      · exact ⟨f, hf, rfl⟩
    · rw [List.find?_cons, List.find?_cons]
      dsimp only
      cases p.move.any fun v => v.number == n
      · exact ⟨g, hg, e⟩
      · exact ⟨id, Pallet.calms_id, rfl⟩

/-- A calming change of one record reaches no deadline of a mover whose own record it leaves. -/
theorem State.quiet_of_calms {f : Pallet → Pallet} (hf : Pallet.Calms f) {k m : Nat}
    (hp : t.pallets = s.pallets.adjust k f) (hm : t.mover m = s.mover m) (hr : t.reached = s.reached)
    (ha : s.acceptReached m = false) (hd : s.doneReached m = false) :
    t.acceptReached m = false ∧ t.doneReached m = false := by
  unfold State.acceptReached State.doneReached State.palletOfMove at *
  rw [hm, hr, hp]
  cases hn : (s.mover m).move with
  | none => simp
  | some n =>
    obtain ⟨g, hg, e⟩ := hf.palletOfMove n k s.pallets
    rw [hn] at ha hd
    rw [Option.bind_some] at ha hd
    simp only [Option.bind_some, e]
    cases hfind : (s.pallets.find? fun e => e.2.move.any fun v => v.number == n).map Prod.snd with
    | none => simp
    | some p =>
      rw [hfind] at ha hd
      simp only [Option.map_some, Option.any_some, Bool.and_eq_false_iff] at *
      refine ⟨ha.imp_right fun h => ?_, hd.imp_right fun h => ?_⟩
      · exact Bool.eq_false_iff.2 fun h' => Bool.eq_false_iff.1 h (hg.accept p _ h')
      · exact Bool.eq_false_iff.2 fun h' => Bool.eq_false_iff.1 h (hg.done p _ h')

theorem State.moverDeadline_fold (s : State) : moverNumbers.foldl (fun v k =>
    if v.acceptReached k then v.expireOffer k
    else if v.doneReached k then v.expireMove k else v) s = moverNumbers.foldl State.moverDeadline s := rfl

/-! ## The deadline of one mover (R114, R115) -/

section
variable {m n : Nat} {p : Pallet} {mv : Move}

theorem Pallet.calms_returned : Pallet.Calms fun p => { p with move := p.move.map Move.returned } where
  number p n := by cases p.move <;> rfl
  accept p due h := by cases hm : p.move <;> simp [hm, Move.returned] at h
  done p due h := by cases hm : p.move <;> simp [hm, Move.returned] at h

theorem Pallet.calms_overdue : Pallet.Calms fun p =>
    { p with move := p.move.map fun mv => { mv with overdue := true, doneDeadline := none } } where
  number p n := by cases p.move <;> rfl
  accept p due h := by
    cases hm : p.move with
    | none => rw [hm] at h; cases h
    | some mv => rw [hm] at h; exact h
  done p due h := by cases hm : p.move <;> simp [hm] at h

/-- The offer of the move that mover `m` holds expires (R114). -/
theorem State.Holds.expireOffer_eq (h : s.Holds m n p mv) : s.expireOffer m =
    (({ (s.returned p mv).modMover m fun x => { x with state := .silent, move := none } with
      freeList := s.freeList.filter (· ≠ m) } : State).raise .moverSilent (.mover m)) := by
  rw [State.expireOffer, h.giveBack_eq]
  rfl

/-- The move that mover `m` holds is overdue (R115). -/
theorem State.Holds.expireMove_eq (h : s.Holds m n p mv) : s.expireMove m =
    (s.modPallet p.label fun p => { p with
      move := some { mv with overdue := true, doneDeadline := none } }).raise .moveOverdue
        (.label p.label) := by
  rw [State.expireMove, h.current, Option.bind_some, h.found]
  dsimp only
  rw [State.modPallet_congr h.record (g := fun p => { p with
    move := some { mv with overdue := true, doneDeadline := none } }) (by simp only [h.live]; rfl)]

theorem State.Holds.pallets_returned (h : s.Holds m n p mv) : (s.returned p mv).pallets =
    s.pallets.adjust p.label.toNat fun p => { p with move := p.move.map Move.returned } := by
  have hsame := Table.adjust_congr (tb := s.pallets) (k := p.label.toNat) (v := p)
    (f := fun p => { p with move := some mv.returned })
    (g := fun p => { p with move := p.move.map Move.returned }) h.record (by simp only [h.live]; rfl)
  exact hsame

theorem State.Holds.pallets_overdue (h : s.Holds m n p mv) : (s.expireMove m).pallets =
    s.pallets.adjust p.label.toNat fun p =>
      { p with move := p.move.map fun mv => { mv with overdue := true, doneDeadline := none } } := by
  rw [State.expireMove, h.current, Option.bind_some, h.found]
  exact State.raise_pallets ..

/-- The clock's report where mover `m` alone has a reached deadline. -/
theorem State.report_single (h : s.Holds m n p mv) (hm : m ∈ moverNumbers)
    (hother : ∀ k, k ≠ m → s.acceptReached k = false ∧ s.doneReached k = false) :
    moverNumbers.foldl State.moverDeadline s = s.moverDeadline m := by
  refine foldl_single (fun k hk => State.moverDeadline_quiet (hother k hk).1 (hother k hk).2)
    (fun k hk => ?_) rfl _ nodup_moverNumbers hm
  obtain ⟨ha, hd⟩ := hother k hk
  have hquiet : (s.moverDeadline m).acceptReached k = false ∧ (s.moverDeadline m).doneReached k = false := by
    unfold State.moverDeadline
    split
    · rw [h.expireOffer_eq]
      refine State.quiet_of_calms Pallet.calms_returned
        ((State.raise_pallets ..).trans h.pallets_returned) ((State.mover_raise ..).trans ?_)
        (State.reached_raise ..) ha hd
      rcases State.mover_modMover_cases (s.returned p mv) m k
        (fun x => { x with state := .silent, move := none }) with e | ⟨e, -⟩
      · exact e
      · exact absurd e hk
    · split
      · refine State.quiet_of_calms Pallet.calms_overdue h.pallets_overdue ?_ ?_ ha hd
        · rw [h.expireMove_eq]; exact State.mover_raise ..
        · rw [h.expireMove_eq]; exact State.reached_raise ..
      · exact ⟨ha, hd⟩
  exact State.moverDeadline_quiet hquiet.1 hquiet.2

end

/-- Settles O29: the report of the clock takes the deadlines of all movers in one event. -/
theorem reachedTimeoutsSilenceOrMarkOverdue : Obligations.ReachedTimeoutsSilenceOrMarkOverdue := by
  intro s mover m report
  have hreport : report = moverNumbers.foldl State.moverDeadline s := rfl
  clear_value report
  have accept (ha : s.acceptReached m = true) :
      exec (.acceptTimeout mover) s = .next report.closeEvent := by
    have hany : moverNumbers.any s.acceptReached = true :=
      List.any_eq_true.2 ⟨m, State.mem_of_acceptReached ha, ha⟩
    rw [exec_acceptTimeout, if_pos ha, runEvent_moverReport, State.moversReported, if_pos hany, hreport]
  have done (hd : s.doneReached m = true) : exec (.doneTimeout mover) s =
      .next (if moverNumbers.any s.acceptReached then report.closeEvent else report) := by
    rw [exec_doneTimeout, if_pos hd, runEvent_moverReport, State.moversReported, hreport]
  refine ⟨accept, done, fun hother n p mv hn hp hq hv => ?_, fun ha => ?_, fun hd => ?_⟩
  · have h : s.Holds m n p mv := ⟨hn, hp, hq, hv⟩
    refine ⟨fun ha => ?_, fun hd => ?_⟩
    · rw [accept ha, hreport, State.report_single h (State.mem_of_acceptReached ha) hother,
        State.moverDeadline, if_pos ha, h.expireOffer_eq]
      rfl
    · have hnone : moverNumbers.any s.acceptReached = false := by
        refine List.any_eq_false.2 fun k _ => Bool.eq_false_iff.1 ?_
        by_cases hk : k = m
        · rw [hk]; exact State.acceptReached_of_doneReached hd
        · exact (hother k hk).1
      rw [done hd, hnone, hreport, State.report_single h (State.mem_of_doneReached hd) hother,
        State.moverDeadline, State.acceptReached_of_doneReached hd, hd, h.expireMove_eq]
      rfl
  · rw [exec_acceptTimeout]; exact if_neg (by rw [ha]; nofun)
  · rw [exec_doneTimeout]; exact if_neg (by rw [hd]; nofun)

end Sys2Proof.Machine

/-! The clock's report to the trunk table, and the trunk records that no flush concerns (sections 3.1
and 3.3). -/

namespace Sys2Proof.Machine

variable {s t : State}

/-! ## The deadline of a trunk that flushes nothing (R48, R49) -/

/-- The state after trunk `k` enters DUE with nothing to flush (R49). -/
def State.becomeDue (s : State) (k : Nat) (r : Trunk) : State :=
  let due := (if r.phase = .opened then s.enterClosing k else s).modTrunk k fun r => { r with phase := .due }
  if r.window.any (·.standing = .released) then due.raise .trunkDue (.trunk k) else due

/-- The state after the deadlines of trunk `k` are taken, where nothing is flushed. -/
def State.trunkTested (s : State) (k : Nat) : State :=
  match s.trunk? k with
  | none => s
  | some r =>
      if s.cutoffReached k then s.becomeDue k r
      else if s.closeReached k then s.enterClosing k else s

theorem State.trunkTested_ofQuiet {k : Nat} (hc : s.closeReached k = false)
    (hd : s.cutoffReached k = false) : s.trunkTested k = s := by
  unfold State.trunkTested
  rw [hc, hd]
  split <;> rfl

theorem State.trunkTested_ofClose {k : Nat} (hc : s.closeReached k = true)
    (hd : s.cutoffReached k = false) : s.trunkTested k = s.enterClosing k := by
  unfold State.trunkTested
  rw [hc, hd]
  cases hr : s.trunk? k with
  | none => rw [State.closeReached, hr] at hc; cases hc
  | some r => rfl

theorem State.trunkTested_ofCutoff {k : Nat} {r : Trunk} (hr : s.trunk? k = some r)
    (hd : s.cutoffReached k = true) : s.trunkTested k = s.becomeDue k r := by
  rw [State.trunkTested, hr]
  exact if_pos hd

theorem State.trunk?_enterClosing (k j : Nat) : (s.enterClosing k).trunk? j =
    if j = k then (s.trunk? k).map fun r => { r with phase := .closing } else s.trunk? j :=
  (State.trunk?_raise ..).trans (State.trunk?_modTrunk ..)

/-- The trunk's record before DUE is written. -/
theorem State.becomeDue_closed (s : State) {k : Nat} {r : Trunk} (hr : s.trunk? k = some r) :
    ∃ p, (if r.phase = .opened then s.enterClosing k else s).trunk? k = some { r with phase := p } := by
  split
  · exact ⟨.closing, by rw [State.trunk?_enterClosing, if_pos rfl, hr]; rfl⟩
  · exact ⟨r.phase, hr⟩

theorem drain_enterDue {e : Ev} {k : Nat} {r : Trunk} (n : Nat) (hr : e.s.trunk? k = some r)
    (hflush : ∀ b ∈ r.window, Cause.reaches .cutOff b.standing = false) :
    drain (n + 2) (e.enterDue k) = drain n { e with s := e.s.becomeDue k r } := by
  have hnot : (r.window.any fun b => b.standing = .unreleased) = false := by
    refine List.any_eq_false.2 fun b hb hs => ?_
    have := hflush b hb
    rw [of_decide_eq_true hs] at this
    cases this
  obtain ⟨p, hp⟩ := e.s.becomeDue_closed hr
  obtain ⟨closed, hclosed⟩ : ∃ v, v = if r.phase = .opened then e.s.enterClosing k else e.s := ⟨_, rfl⟩
  rw [← hclosed] at hp
  have hdue : (closed.modTrunk k fun r => { r with phase := .due }).trunk? k =
      some { r with phase := .due } := State.trunk?_modTrunk_self hp _
  have henter : e.enterDue k = { e with
      s := closed.modTrunk k fun r => { r with phase := .due }
      work := [.flushBookings k .cutOff, .dueEnd k false] ++ e.work } := by
    rw [Ev.enterDue, hr]
    dsimp only
    rw [← hclosed, hnot]
    rfl
  rw [henter, drain_of_cons (n + 1) (w := .flushBookings k .cutOff)
    (ws := .dueEnd k false :: e.work) rfl, Ev.perform, ev_flushBookings_of_none _ _ _ (by
      intro r' hr'
      rw [show State.trunk? _ k = _ from hdue, Option.some.injEq] at hr'
      rw [← hr']
      exact hflush), drain_of_cons n (w := .dueEnd k false) (ws := e.work) rfl, Ev.perform, Ev.dueEnd,
    State.becomeDue, hdue, ← hclosed]
  simp only [Bool.false_or, Option.any_some]
  split <;> rfl

/-- The deadlines of a trunk, in a list of them, where nothing is flushed. -/
theorem drain_trunkDeadline {e : Ev} {k : Nat} {ks : List Nat} {ws : List Work} {u : State} (n : Nat)
    (hw : e.work = .trunkDeadlines (k :: ks) :: ws)
    (hflush : (Work.trunkDeadlines (k :: ks)).flushesNothing e.s)
    (hu : drain n { e with work := .trunkDeadlines ks :: ws, s := e.s.trunkTested k } = some u) :
    drain (n + 3) e = some u := by
  rw [drain_of_cons (n + 2) hw]
  show drain (n + 2) (({ e with work := .trunkDeadlines ks :: ws } : Ev).trunkDeadline k) = some u
  unfold Ev.trunkDeadline
  cases hd : e.s.cutoffReached k
  · rw [if_neg (by nofun)]
    cases hc : e.s.closeReached k
    · rw [State.trunkTested_ofQuiet hc hd] at hu
      exact drain_mono hu (by omega)
    · rw [State.trunkTested_ofClose hc hd] at hu
      exact drain_mono hu (by omega)
  · rw [if_pos rfl]
    obtain ⟨r, hr⟩ : ∃ r, e.s.trunk? k = some r := by
      cases hr : e.s.trunk? k with
      | none => rw [State.cutoffReached, hr] at hd; cases hd
      | some r => exact ⟨r, rfl⟩
    have hnone := (hflush k (by simp)).resolve_left (by rw [hd]; nofun) r hr
    rw [drain_enterDue (e := { e with work := .trunkDeadlines ks :: ws }) n hr hnone]
    rw [State.trunkTested_ofCutoff hr hd] at hu
    exact hu

/-- Taking one trunk's deadlines leaves the others with nothing to flush. -/
theorem State.flushesNothing_trunkTested {ks : List Nat} (k : Nat)
    (h : (Work.trunkDeadlines ks).flushesNothing s) :
    (Work.trunkDeadlines ks).flushesNothing (s.trunkTested k) := by
  unfold State.trunkTested
  split
  · exact h
  · rename_i r hr
    split
    · rename_i hc
      have hph : ∀ r', s.trunk? k = some r' → r'.phase ≠ .due := fun r' hr' hd => by
        simp [State.cutoffReached, hr', hd] at hc
      have hclosed : (Work.trunkDeadlines ks).flushesNothing
          (if r.phase = .opened then s.enterClosing k else s) := by
        split
        · exact h.enterClosing k hph
        · exact h
      have hdue := hclosed.modPhase k .due fun h => absurd rfl h
      unfold State.becomeDue
      dsimp only
      split
      · exact hdue.raise .trunkDue (.trunk k)
      · exact hdue
    · split
      · rename_i hc
        refine h.enterClosing k fun r' hr' hd => ?_
        simp [State.closeReached, hr', hd] at hc
      · exact h

theorem drain_trunkDeadlines {ws : List Work} {u : State} (n : Nat) (ks : List Nat) : ∀ {e : Ev},
    e.work = .trunkDeadlines ks :: ws → (Work.trunkDeadlines ks).flushesNothing e.s →
    drain n { e with work := ws, s := ks.foldl State.trunkTested e.s } = some u →
    drain (n + 1 + 3 * ks.length) e = some u := by
  induction ks with
  | nil => exact fun hw _ hu => (drain_of_cons n hw).trans hu
  | cons k ks ih =>
    intro e hw hflush hu
    rw [show n + 1 + 3 * (k :: ks).length = n + 1 + 3 * ks.length + 3 by rw [List.length_cons]; omega]
    refine drain_trunkDeadline _ hw hflush (ih rfl ?_ hu)
    exact State.flushesNothing_trunkTested k fun j hj => hflush j (by simp [hj])

/-- The state after the clock's report to the trunk table, where nothing is flushed (R41). -/
def State.trunksReported (s : State) : State :=
  if trunkNumbers.any s.cutoffReached then (trunkNumbers.foldl State.trunkTested s).closeEvent
  else trunkNumbers.foldl State.trunkTested s

theorem trunkNumbers_length : trunkNumbers.length = 128 := by
  rw [trunkNumbers, List.length_map, List.length_range]

theorem drain_trunkReport {e : Ev} {ws : List Work} {u : State} (n : Nat)
    (hw : e.work = .trunkReport :: ws) (hflush : (Work.trunkDeadlines trunkNumbers).flushesNothing e.s)
    (hu : drain n { e with work := ws, s := e.s.trunksReported } = some u) :
    drain (n + 389) e = some u := by
  have hreport : drain (n + 389) e = drain (n + 388) { e with
      work := .trunkDeadlines trunkNumbers ::
        ((if trunkNumbers.any e.s.cutoffReached then closing else []) ++ ws) } := by
    rw [drain_of_cons (n + 388) hw, Ev.perform, Ev.trunkReport, Ev.push, List.cons_append]
  rw [hreport, show n + 388 = n + 3 + 1 + 3 * trunkNumbers.length by rw [trunkNumbers_length]]
  refine drain_trunkDeadlines (n + 3) trunkNumbers rfl hflush ?_
  unfold State.trunksReported at hu
  split at hu
  · rename_i h
    simp only [State.closeEvent] at hu
    rw [if_pos h, drain_closing n _ ws rfl, hu]
  · rename_i h
    rw [if_neg h]
    exact drain_mono hu (by omega)

theorem runEvent_trunkReport (hflush : (Work.trunkDeadlines trunkNumbers).flushesNothing s) :
    runEvent { s := s, work := [.trunkReport] } = .next s.trunksReported :=
  runEvent_of_drain (drain_trunkReport 0 rfl hflush (drain_of_nil 0 rfl)) (eventBound_ge (by omega))

/-! ## Deadlines of one trunk among the others -/

theorem nodup_trunkNumbers : trunkNumbers.Nodup :=
  List.Nodup.map (fun _ _ => Nat.succ.inj) List.nodup_range

theorem mem_trunkNumbers {k : Nat} (h : isTrunkNumber k = true) : k ∈ trunkNumbers := by
  rw [isTrunkNumber_iff] at h
  exact List.mem_map.2 ⟨k - 1, List.mem_range.2 (by omega), by omega⟩

theorem State.closeReached_raise (s : State) (c : CondName) (x : Subject) (u : Nat) :
    (s.raise c x).closeReached u = s.closeReached u := by
  simp [State.closeReached]

/-- Another trunk's deadlines after a change of trunk `k`'s phase. -/
theorem State.reached_modPhase_ne (s : State) {k u : Nat} (h : u ≠ k) (p : Phase) :
    (s.modTrunk k fun r => { r with phase := p }).closeReached u = s.closeReached u ∧
      (s.modTrunk k fun r => { r with phase := p }).cutoffReached u = s.cutoffReached u := by
  unfold State.closeReached State.cutoffReached
  rw [State.trunk?_modTrunk, if_neg h]
  exact ⟨rfl, rfl⟩

theorem State.reached_enterClosing_ne (s : State) {k u : Nat} (h : u ≠ k) :
    (s.enterClosing k).closeReached u = s.closeReached u ∧
      (s.enterClosing k).cutoffReached u = s.cutoffReached u := by
  obtain ⟨hc, hd⟩ := s.reached_modPhase_ne h .closing
  exact ⟨(State.closeReached_raise ..).trans hc, (State.cutoffReached_raise ..).trans hd⟩

theorem State.reached_becomeDue_ne (s : State) {k u : Nat} (h : u ≠ k) (r : Trunk) :
    (s.becomeDue k r).closeReached u = s.closeReached u ∧
      (s.becomeDue k r).cutoffReached u = s.cutoffReached u := by
  have hclosed : (if r.phase = .opened then s.enterClosing k else s).closeReached u = s.closeReached u ∧
      (if r.phase = .opened then s.enterClosing k else s).cutoffReached u = s.cutoffReached u := by
    split
    · exact s.reached_enterClosing_ne h
    · exact ⟨rfl, rfl⟩
  obtain ⟨hc, hd⟩ := State.reached_modPhase_ne (if r.phase = .opened then s.enterClosing k else s) h .due
  unfold State.becomeDue
  dsimp only
  split
  · exact ⟨(State.closeReached_raise ..).trans (hc.trans hclosed.1),
      (State.cutoffReached_raise ..).trans (hd.trans hclosed.2)⟩
  · exact ⟨hc.trans hclosed.1, hd.trans hclosed.2⟩

/-- The cut-off of trunk `k` alone is reached. -/
theorem State.report_oneTrunk {k : Nat} {r : Trunk} (hk : k ∈ trunkNumbers) (hr : s.trunk? k = some r)
    (hd : s.cutoffReached k = true)
    (hother : ∀ u, u ≠ k → s.closeReached u = false ∧ s.cutoffReached u = false) :
    trunkNumbers.foldl State.trunkTested s = s.becomeDue k r := by
  refine foldl_single (m := k) (fun u hu => ?_) (fun u hu => ?_) (State.trunkTested_ofCutoff hr hd) _
    nodup_trunkNumbers hk
  · exact State.trunkTested_ofQuiet (hother u hu).1 (hother u hu).2
  · obtain ⟨hc, hx⟩ := s.reached_becomeDue_ne hu r
    exact State.trunkTested_ofQuiet (hc.trans (hother u hu).1) (hx.trans (hother u hu).2)

/-- With no cut-off reached the report closes the trunks whose close time is reached. -/
theorem State.foldl_trunkTested_ofClose (ks : List Nat) : ∀ {v : State}, ks.Nodup →
    (∀ u, v.cutoffReached u = false) → (∀ u ∈ ks, v.closeReached u = s.closeReached u) →
    ks.foldl State.trunkTested v = (ks.filter s.closeReached).foldl State.enterClosing v := by
  induction ks with
  | nil => intro v _ _ _; rfl
  | cons k ks ih =>
    intro v hn hd hc
    rw [List.nodup_cons] at hn
    have hk : v.closeReached k = s.closeReached k := hc k (by simp)
    rw [List.foldl_cons, List.filter_cons]
    cases hclose : s.closeReached k
    · rw [State.trunkTested_ofQuiet (hk.trans hclose) (hd k), if_neg (by nofun)]
      exact ih hn.2 hd fun u hu => hc u (by simp [hu])
    · have hne : ∀ u ∈ ks, u ≠ k := fun u hu e => hn.1 (e ▸ hu)
      rw [State.trunkTested_ofClose (hk.trans hclose) (hd k), if_pos rfl, List.foldl_cons]
      have hph : ∀ r, v.trunk? k = some r → r.phase ≠ .due := fun r hr hp => by
        rw [hclose, State.closeReached, hr] at hk
        simp [hp] at hk
      refine ih hn.2 (fun u => ?_) fun u hu => ?_
      · exact (State.cutoffReached_raise ..).trans
          (v.cutoffReached_modPhase k .closing (fun _ => hph) u (hd u))
      · exact (v.reached_enterClosing_ne (hne u hu)).1.trans (hc u (by simp [hu]))

/-- A cause of a cut-off reaches the UNRELEASED bookings alone. -/
theorem Cause.reaches_cutOff {x : Standing} (h : x ≠ .unreleased) : Cause.reaches .cutOff x = false := by
  cases x with
  | unreleased => exact absurd rfl h
  | released => rfl
  | loaded => rfl

/-- Settles O30: the report of the clock takes the deadlines of all trunks in one event. -/
theorem closeTimeAndCutoffChangeThePhase : Obligations.CloseTimeAndCutoffChangeThePhase := by
  intro s trunk hk k closed
  have hmem := mem_trunkNumbers hk
  have hclosed (v : State) (u : Nat) : closed v u = v.enterClosing u := rfl
  clear_value closed
  refine ⟨fun hc hd => ?_, fun r hr hd hother hflush => ?_, fun hc => ?_, fun hd => ?_⟩
  · have hnone : trunkNumbers.any s.cutoffReached = false :=
      List.any_eq_false.2 fun u _ => Bool.eq_false_iff.1 (hd u)
    rw [exec_closeTimeReached, if_pos hc, runEvent_trunkReport fun u _ => .inl (hd u), State.trunksReported,
      hnone, if_neg (by nofun), State.foldl_trunkTested_ofClose (s := s) _ nodup_trunkNumbers hd fun _ _ => rfl,
      show closed = State.enterClosing from funext fun v => funext fun u => hclosed v u]
  · intro due v
    have hv : v = (s.becomeDue k r).closeEvent := by
      simp only [v, due, hclosed, State.becomeDue]
      split <;> rfl
    clear_value v
    have hreport : runEvent { s := s, work := [.trunkReport] } = .next v := by
      have hnothing : (Work.trunkDeadlines trunkNumbers).flushesNothing s := by
        intro u hu
        by_cases huk : u = k
        · subst huk
          refine .inr fun r' hr' b hb => Cause.reaches_cutOff (hflush b ?_)
          rw [hr, Option.some.injEq] at hr'
          exact hr' ▸ hb
        · exact .inl (hother u huk).2
      rw [runEvent_trunkReport hnothing, State.trunksReported,
        if_pos (List.any_eq_true.2 ⟨k, hmem, hd⟩), State.report_oneTrunk hmem hr hd hother, hv]
    exact ⟨by rw [exec_cutoffReached, if_pos hd, hreport],
      fun hc => by rw [exec_closeTimeReached, if_pos hc, hreport]⟩
  · rw [exec_closeTimeReached]; exact if_neg (by rw [hc]; nofun)
  · rw [exec_cutoffReached]; exact if_neg (by rw [hd]; nofun)

end Sys2Proof.Machine

/-! The shift clock (R38 to R41), and the requests that write a trunk's deadlines (R47, R50). -/

namespace Sys2Proof.Machine

variable {s t : State}

/-! ## Requests that are events -/

theorem drain_answer {e : Ev} {due : Bool} (hw : e.work = [.answer due]) :
    drain 1 e = some (e.s.giveResult due .done none) :=
  (drain_of_cons 0 hw).trans (drain_of_nil 0 rfl)

theorem drain_closing_answer {e : Ev} {due : Bool} (hw : e.work = closing ++ [.answer due]) :
    drain 4 e = some (e.s.closeEvent.giveResult due .done none) := by
  rw [drain_closing 1 e _ hw, drain_answer rfl]
  simp only [State.closeEvent]

theorem takeRequest_event {c : Instr} {rule : State → Taken} {e : Ev} {u : State} {n : Nat}
    (h : s.restart = none) (hr : rule s = .event e)
    (hd : drain n { e with work := e.work ++ [.answer (s.isDue c)] } = some u) (hn : n ≤ 10000) :
    takeRequest c rule s = .next u := by
  have hrun := runEvent_of_drain hd (eventBound_ge hn)
  unfold takeRequest
  simp only [State.restartPending, h, hr, Option.isSome_none, Bool.false_eq_true, if_false]
  exact hrun

/-! ## The reports that are owed (R41) -/

theorem State.trunkReached_false {k : Nat} (h : s.closeReached k = false ∧ s.cutoffReached k = false) :
    s.trunkReached k = false := by
  rw [State.trunkReached, h.1, h.2]; rfl

theorem State.anyTrunkReached_false (h : ∀ k, s.closeReached k = false ∧ s.cutoffReached k = false) :
    trunkNumbers.any s.trunkReached = false :=
  List.any_eq_false.2 fun k _ => Bool.eq_false_iff.1 (State.trunkReached_false (h k))

theorem State.anyMoverReached_false (h : ∀ m, s.acceptReached m = false ∧ s.doneReached m = false) :
    moverNumbers.any s.moverReached = false :=
  List.any_eq_false.2 fun m _ => Bool.eq_false_iff.1 (by rw [State.moverReached, (h m).1, (h m).2]; rfl)

theorem State.clockReports_none (ht : trunkNumbers.any s.trunkReached = false)
    (hm : moverNumbers.any s.moverReached = false) : s.clockReports = (s, []) := by
  rw [State.clockReports, ht, hm]

theorem State.clockReports_movers (ht : trunkNumbers.any s.trunkReached = false)
    (hm : moverNumbers.any s.moverReached = true) : s.clockReports = (s, [.moverReport]) := by
  rw [State.clockReports, ht, hm]

theorem State.takeReports_movers (ht : trunkNumbers.any s.trunkReached = false)
    (hm : moverNumbers.any s.moverReached = true) : s.takeReports = .next s.moversReported := by
  rw [State.takeReports, State.clockReports_movers ht hm]
  exact runEvent_moverReport s

/-- A stopped clock reaches no deadline, so that no report is owed. -/
theorem State.reportOwed_stopped (h : s.clock.running = false) : s.reportOwed = false := by
  have hr : s.reached = fun _ => false := by
    funext d; rw [State.reached, h]; rfl
  have ht : ∀ k, s.closeReached k = false ∧ s.cutoffReached k = false := fun k => by
    simp [State.closeReached, State.cutoffReached, hr]
  have hm : ∀ m, s.acceptReached m = false ∧ s.doneReached m = false := fun m => by
    simp [State.acceptReached, State.doneReached, hr]
  rw [State.reportOwed, State.anyTrunkReached_false ht, State.anyMoverReached_false hm]
  rfl

/-! ## The clock (R38 to R40) -/

theorem Clock.advance_eq (c : Clock) : c.advance = if c.running then
    { value := if c.value < 86399 then c.value + 1 else c.value, running := true, periods := 0 }
    else c := by
  unfold Clock.advance
  split
  · rename_i h; rw [h]
  · rfl

theorem execClockAdvance_owed (h : s.reportOwed = true) {t : State} (ht : s.takeReports = .next t) :
    execClockAdvance s = .next { t with clock := t.clock.advance } := by
  rw [execClockAdvance, if_pos h, ht]

theorem execClockAdvance_quiet (h : s.reportOwed = false) :
    execClockAdvance s = .next { s with clock := s.clock.advance } := by
  rw [execClockAdvance, h]
  rfl

theorem startShift_set {time : Nat} (h : time ≤ 86399) (hs : s.clock.running = false) :
    startShift time s = .event
      { s := (State.clockReports { s with clock := { value := time, running := true, periods := 0 } }).1
        work := (State.clockReports
          { s with clock := { value := time, running := true, periods := 0 } }).2 } := by
  unfold startShift
  rw [if_neg (Nat.not_lt.2 h), hs]
  rfl

theorem Clock.period_stopped {c : Clock} (h : c.running = false) : c.period = c := by
  rw [Clock.period, h]; rfl

theorem Clock.period_counts {c : Clock} (h : c.running = true) (hp : c.periods + 1 < 25000000) :
    c.period = { c with periods := c.periods + 1 } := by
  rw [Clock.period, h]
  exact if_pos hp

theorem Clock.period_advances {c : Clock} (h : c.running = true) (hp : 25000000 ≤ c.periods + 1) :
    c.period = { value := if c.value < 86399 then c.value + 1 else c.value, running := true, periods := 0 } := by
  rw [Clock.period, if_pos h, if_neg (show ¬c.periods + 1 < Config.periodsPerSecond from Nat.not_lt.2 hp),
    Clock.advance_eq, if_pos h]

theorem step_idle (h : s.pending = []) : step s = s.idle := by
  rw [step, h]

/-- Settles O36: the reports of the clock as one event a block, and the clock's own steps. -/
theorem clockStartsStopsAndAdvances : Obligations.ClockStartsStopsAndAdvances := by
  refine ⟨?_, ?_⟩
  · intro s time trunksQuiet moversQuiet moverReport advanced
    have hreport (v : State) : moverReport v = v.moversReported := rfl
    have hadvanced (v : State) : advanced v = { v with clock := v.clock.advance } := by
      rw [Clock.advance_eq]
    clear_value moverReport advanced
    refine ⟨fun h => ?_, fun h => ?_, fun ht hm => ?_, fun ht hm => ?_, fun ho v hv => ?_⟩
    · intro c
      have hc : exec c s = takeRequest c (startShift time.toNat) s := rfl
      refine ⟨fun hlt => ?_, fun hle hrun => ?_, fun hle hrun => ?_⟩
      · exact hc.trans (takeRequest_refused h (if_pos hlt))
      · refine hc.trans (takeRequest_refused h ((if_neg (Nat.not_lt.2 hle)).trans (if_pos hrun)))
      · intro u ht
        have hset := startShift_set hle hrun
        have htrunks := State.anyTrunkReached_false ht
        refine ⟨fun hm => ?_, fun hm => ?_⟩
        · rw [State.clockReports_none htrunks (State.anyMoverReached_false hm)] at hset
          rw [hc]
          exact takeRequest_event (n := 1) h hset (drain_answer rfl) (by decide)
        · rw [State.clockReports_movers htrunks hm] at hset
          rw [hc, hreport]
          exact takeRequest_event (n := 6) h hset (drain_moverReport 1 rfl (drain_answer rfl)) (by decide)
    · intro u
      exact ⟨(exec_stopShift s).trans (takeRequest_done h rfl), fun _ => rfl⟩
    · have howed : s.reportOwed = false := by
        rw [State.reportOwed, State.anyTrunkReached_false ht, State.anyMoverReached_false hm]; rfl
      rw [exec_clockAdvance, execClockAdvance_quiet howed, hadvanced]
    · have htrunks := State.anyTrunkReached_false ht
      have htake := State.takeReports_movers htrunks hm
      have howed : s.reportOwed = true := by
        rw [State.reportOwed, htrunks, hm]; rfl
      rw [exec_clockAdvance, execClockAdvance_owed howed htake, hreport, hadvanced]
      exact ⟨htake, rfl⟩
    · rw [exec_clockAdvance, execClockAdvance_owed ho hv, hadvanced]
  · intro s hp
    have hidle := step_idle hp
    have hquiet (h : s.reportOwed = false) : step s = .next { s with clock := s.clock.period } := by
      rw [hidle, State.idle, h]; rfl
    refine ⟨fun ho => ?_, fun hrun => ?_, fun ho hrun hlt => ?_, fun ho hrun hle => ?_⟩
    · rw [hidle, State.idle, if_pos ho]
    · rw [hquiet (State.reportOwed_stopped hrun), Clock.period_stopped hrun]
    · rw [hquiet ho, Clock.period_counts hrun hlt]
    · rw [hquiet ho, Clock.period_advances hrun hle]

end Sys2Proof.Machine

/-! PUT_TRUNK and SET_CUTOFF (R47, R50). -/

namespace Sys2Proof.Machine

variable {s t : State}

/-! ## A trunk's deadlines by the clock (R48, R49) -/

section
variable {k : Nat} {r : Trunk}

theorem State.reached_iff (s : State) (d : Nat) :
    s.reached d = true ↔ s.clock.running = true ∧ d ≤ s.clock.value := by
  simp [State.reached]

theorem State.cutoffReached_iff (hr : s.trunk? k = some r) (hp : r.phase ≠ .due) :
    s.cutoffReached k = true ↔ s.clock.running = true ∧ r.cutoff ≤ s.clock.value := by
  rw [← State.reached_iff, State.cutoffReached, hr]
  simp [hp]

theorem State.closeReached_iff (hr : s.trunk? k = some r) : s.closeReached k = true ↔
    r.phase = .opened ∧ s.clock.running = true ∧ r.cutoff - r.margin ≤ s.clock.value := by
  rw [← State.reached_iff, State.closeReached, hr]
  simp [Trunk.closeTime]

/-- The deadlines of a trunk before its close time. -/
theorem State.trunkTested_early (hr : s.trunk? k = some r) (hp : r.phase ≠ .due)
    (h : s.clock.running = false ∨ s.clock.value < r.cutoff - r.margin) : s.trunkTested k = s := by
  refine State.trunkTested_ofQuiet (Bool.eq_false_iff.2 fun hc => ?_) (Bool.eq_false_iff.2 fun hd => ?_)
  · obtain ⟨-, hrun, hle⟩ := (State.closeReached_iff hr).1 hc
    rcases h with h | h
    · rw [h] at hrun; cases hrun
    · omega
  · obtain ⟨hrun, hle⟩ := (State.cutoffReached_iff hr hp).1 hd
    rcases h with h | h
    · rw [h] at hrun; cases hrun
    · omega

/-- The deadlines of a trunk between its close time and its cut-off. -/
theorem State.trunkTested_late (hr : s.trunk? k = some r) (hp : r.phase ≠ .due)
    (hrun : s.clock.running = true) (hc : r.cutoff - r.margin ≤ s.clock.value)
    (hd : s.clock.value < r.cutoff) :
    s.trunkTested k = if r.phase = .opened then s.enterClosing k else s := by
  have hcut : s.cutoffReached k = false := Bool.eq_false_iff.2 fun h => by
    have := ((State.cutoffReached_iff hr hp).1 h).2
    omega
  split
  · exact State.trunkTested_ofClose ((State.closeReached_iff hr).2 ⟨‹_›, hrun, hc⟩) hcut
  · exact State.trunkTested_ofQuiet (Bool.eq_false_iff.2 fun h =>
      ‹¬r.phase = .opened› ((State.closeReached_iff hr).1 h).1) hcut

/-- The deadlines of a trunk from its cut-off on. -/
theorem State.trunkTested_due (hr : s.trunk? k = some r) (hp : r.phase ≠ .due)
    (hrun : s.clock.running = true) (hd : r.cutoff ≤ s.clock.value) : s.trunkTested k = s.becomeDue k r :=
  State.trunkTested_ofCutoff hr ((State.cutoffReached_iff hr hp).2 ⟨hrun, hd⟩)

end

theorem flushesNothing_single {k : Nat} (h : s.cutoffReached k = true → ∀ r, s.trunk? k = some r →
    ∀ b ∈ r.window, b.standing ≠ .unreleased) : (Work.trunkDeadlines [k]).flushesNothing s := by
  intro u hu
  rw [List.mem_singleton] at hu
  subst hu
  cases hc : s.cutoffReached u
  · exact .inl rfl
  · exact .inr fun r hr b hb => Cause.reaches_cutOff (h hc r hr b hb)

/-! ## PUT_TRUNK (R46, R47) -/

/-- The ranges of PUT_TRUNK (test 1 of R47). -/
theorem putTrunk_inRange (k cls : Nat) (dropA dropB : Byte) (cutoff m : Nat) :
    (!isTrunkNumber k || !isClassSlot cls || !dropsInRange dropA.toNat (optionalNumber dropB) ||
      decide (Config.lastSecond < cutoff) || decide (largestMargin < m)) = false ↔
    isTrunkNumber k = true ∧ cls ≤ 7 ∧ isDepot dropA.toNat = true ∧
      (dropB ≠ 0 → isDepot dropB.toNat = true ∧ dropB ≠ dropA) ∧ cutoff ≤ 86399 ∧ m ≤ 7200 := by
  have hdrops : dropsInRange dropA.toNat (optionalNumber dropB) = true ↔ isDepot dropA.toNat = true ∧
      (dropB ≠ 0 → isDepot dropB.toNat = true ∧ dropB ≠ dropA) := by
    unfold dropsInRange optionalNumber
    by_cases h0 : dropB = 0
    · simp [h0]
    · have hne : dropB.toNat = dropA.toNat ↔ dropB = dropA := BitVec.toNat_inj
      rw [if_neg h0]
      simp only [Option.all_some, Bool.and_eq_true, decide_eq_true_eq, ne_eq, hne, h0, not_false_eq_true,
        true_implies]
  have hcut : decide (Config.lastSecond < cutoff) = false ↔ cutoff ≤ 86399 :=
    decide_eq_false_iff_not.trans Nat.not_lt
  have hmargin : decide (largestMargin < m) = false ↔ m ≤ 7200 :=
    decide_eq_false_iff_not.trans Nat.not_lt
  simp only [Bool.or_eq_false_iff, Bool.not_eq_false', hcut, hmargin, hdrops, isClassSlot,
    decide_eq_true_eq, and_assoc]

theorem putTrunk_rule {k dropA cls cutoff m : Nat} {dropB : Option Nat}
    (h : (!isTrunkNumber k || !isClassSlot cls || !dropsInRange dropA dropB ||
      decide (Config.lastSecond < cutoff) || decide (largestMargin < m)) = false)
    (hc : (s.classes.get? cls).isSome) : putTrunk k dropA dropB cls cutoff m s =
      match s.trunk? k with
      | none => .event
          { s := s.addTrunk k (newTrunk dropA dropB cls cutoff m .unplaced), work := [.trunkDeadlines [k]] }
      | some r =>
          if !r.window.isEmpty then .refused .inUse
          else .event
            { s := s.modTrunk k (·.renew (newTrunk dropA dropB cls cutoff m .unplaced))
              work := [.trunkDeadlines [k]] } := by
  have hnone : (s.classes.get? cls).isNone = false := by
    rw [Option.isNone_eq_false_iff]; exact hc
  unfold putTrunk
  rw [h, hnone]
  rfl

/-- A new or renewed record is tested against the clock within the request (R47). -/
theorem takeRequest_tested {c : Instr} {rule : State → Taken} {k : Nat} {v : State} {r : Trunk}
    (h : s.restart = none) (hr : rule s = .event { s := v, work := [.trunkDeadlines [k]] })
    (hk : v.trunk? k = some r) (hw : r.window = []) :
    takeRequest c rule s = .next ((v.trunkTested k).giveResult (s.isDue c) .done none) := by
  refine takeRequest_event (n := 5) h hr ?_ (by decide)
  refine drain_trunkDeadlines 1 [k] (ws := [.answer (s.isDue c)]) rfl (flushesNothing_single ?_) (drain_answer rfl)
  intro _ r' hr' b hb
  rw [show State.trunk? v k = _ from hk, Option.some.injEq] at hr'
  rw [← hr', hw] at hb
  cases hb

/-- An OPEN record without bookings against the clock. -/
theorem State.trunkTested_opened {k : Nat} {r : Trunk} (hr : s.trunk? k = some r)
    (hp : r.phase = .opened) (hw : r.window = []) : s.trunkTested k =
      if s.clock.running = false ∨ s.clock.value < r.cutoff - r.margin then s
      else if s.clock.value < r.cutoff then s.enterClosing k
      else (s.enterClosing k).modTrunk k fun r => { r with phase := .due } := by
  have hdue : r.phase ≠ .due := by rw [hp]; nofun
  split
  · exact State.trunkTested_early hr hdue ‹_›
  · rename_i h
    rw [not_or, Bool.not_eq_false, Nat.not_lt] at h
    split
    · rw [State.trunkTested_late hr hdue h.1 h.2 ‹_›, if_pos hp]
    · rw [State.trunkTested_due hr hdue h.1 (Nat.not_lt.1 ‹_›), State.becomeDue, if_pos hp, hw]
      rfl

/-- Settles O39: the tests in order, and the new phase against the clock. -/
theorem putTrunkMakesOrRenewsTheRecord : Obligations.PutTrunkMakesOrRenewsTheRecord := by
  intro s trunk dropA dropB cls cutoff margin h c k far m inRange new
  have hc : exec c s = takeRequest c
      (putTrunk k dropA.toNat (optionalNumber dropB) cls.toNat cutoff.toNat (marginOf margin)) s := rfl
  have hrange : _ ↔ inRange := putTrunk_inRange k cls.toNat dropA dropB cutoff.toNat m
  refine ⟨fun hn => ?_, fun hi hclass => ?_, fun hi hclass => ⟨fun r hr hw => ?_, ?_⟩⟩
  · exact hc.trans (takeRequest_refused h (if_pos (Bool.not_eq_false _ ▸ mt hrange.1 hn)))
  · refine hc.trans (takeRequest_refused h ((if_neg ?_).trans (if_pos ?_)))
    · exact Bool.eq_false_iff.1 (hrange.2 hi)
    · rw [hclass]; rfl
  · refine hc.trans (takeRequest_refused h ((putTrunk_rule (hrange.2 hi) hclass).trans ?_))
    rw [hr]
    exact if_pos (by simpa using hw)
  · intro closed tested
    have htested (v : State) (r : Trunk) (hv : v.clock = s.clock) (hr : v.trunk? k = some r)
        (hp : r.phase = .opened) (hw : r.window = []) (h1 : r.cutoff = cutoff.toNat) (h2 : r.margin = m) :
        v.trunkTested k = tested v := by
      rw [State.trunkTested_opened hr hp hw, hv, h1, h2]
      rfl
    clear_value tested
    refine ⟨fun hr => ?_, fun r hr hw => ?_⟩
    · have hnew : (s.addTrunk k new).trunk? k = some new := (Table.get?_put ..).trans (if_pos rfl)
      rw [← htested (s.addTrunk k new) new rfl hnew rfl rfl rfl rfl]
      refine hc.trans (takeRequest_tested h ((putTrunk_rule (hrange.2 hi) hclass).trans ?_) hnew rfl)
      rw [hr]
      rfl
    · have hrenewed := State.trunk?_modTrunk_self hr fun r => { r with
        dropA := dropA.toNat, dropB := far, cls := cls.toNat, cutoff := cutoff.toNat, margin := m
        phase := .opened, openPosition := none, fill := 0, topWeight := 0, plannedWeight := 0
        plannedMoment := 0, inFlight := 0 }
      rw [← htested _ _ (by exact rfl) hrenewed rfl hw rfl rfl]
      refine hc.trans (takeRequest_tested h ((putTrunk_rule (hrange.2 hi) hclass).trans ?_) hrenewed hw)
      rw [hr]
      exact if_neg (by simp [hw])

/-! ## SET_CUTOFF (R50) -/

theorem setCutoff_rule {k cutoff margin : Nat} {r : Trunk} (hk : isTrunkNumber k = true)
    (hc : cutoff ≤ 86399) (hm : margin ≤ 7200) (hr : s.trunk? k = some r) :
    setCutoff k cutoff margin s =
      if r.phase = .due then .refused .wrongState
      else .event
        { s := s.modTrunk k (·.withCutoff cutoff margin s.clock.value)
          work := .trunkDeadlines [k] :: closing } := by
  have htests : (!isTrunkNumber k || decide (Config.lastSecond < cutoff) ||
      decide (largestMargin < margin)) = false := by
    rw [hk, show decide (Config.lastSecond < cutoff) = false from decide_eq_false (Nat.not_lt.2 hc),
      show decide (largestMargin < margin) = false from decide_eq_false (Nat.not_lt.2 hm)]
    rfl
  unfold setCutoff
  rw [htests, hr]
  rfl

/-- A request whose event takes a trunk's deadlines, with nothing to flush, and closes. -/
theorem takeRequest_testedClosing {c : Instr} {rule : State → Taken} {k : Nat} {v : State}
    (h : s.restart = none) (hr : rule s = .event { s := v, work := .trunkDeadlines [k] :: closing })
    (hflush : (Work.trunkDeadlines [k]).flushesNothing v) : takeRequest c rule s =
      .next ((v.trunkTested k).closeEvent.giveResult (s.isDue c) .done none) :=
  takeRequest_event (n := 8) h hr
    (drain_trunkDeadlines 4 [k] (ws := closing ++ [.answer (s.isDue c)]) rfl hflush
      (drain_closing_answer rfl)) (by decide)

/-- The phase after a SET_CUTOFF, before the clock is read (R50). -/
theorem Trunk.withCutoff_eq (r : Trunk) (cutoff margin clock : Nat) :
    r.withCutoff cutoff margin clock = { r with
      cutoff := cutoff, margin := margin
      phase := if r.phase = .closing ∧ clock < cutoff - margin then .opened else r.phase } := by
  have hbool : (decide (r.phase = .closing) && decide (clock < cutoff - margin)) = true ↔
      r.phase = .closing ∧ clock < cutoff - margin := by simp
  unfold Trunk.withCutoff Trunk.closeTime
  by_cases hp : r.phase = .closing ∧ clock < cutoff - margin
  · rw [if_pos hp]
    exact if_pos (hbool.2 hp)
  · rw [if_neg hp]
    exact if_neg (mt hbool.1 hp)

/-- Settles O40: the tests in order, and the trunk's new deadlines against the clock. -/
theorem setCutoffReplacesTheDeadlines : Obligations.SetCutoffReplacesTheDeadlines := by
  intro s trunk cutoff margin h c k inRange
  have hc : exec c s = takeRequest c (setCutoff k cutoff.toNat margin.toNat) s := rfl
  refine ⟨fun hn => ?_, fun ⟨hk, hcut, hm⟩ hr => ?_, fun r ⟨hk, hcut, hm⟩ hr => ?_⟩
  · refine hc.trans (takeRequest_refused h (if_pos ?_))
    by_contra hpass
    simp only [Bool.not_eq_true, Bool.or_eq_false_iff, Bool.not_eq_false', decide_eq_false_iff_not,
      Nat.not_lt] at hpass
    exact hn ⟨hpass.1.1, hpass.1.2, hpass.2⟩
  · refine hc.trans (takeRequest_refused h ((if_neg ?_).trans ?_))
    · simp only [hk, Bool.not_true, Bool.false_or, Bool.or_eq_true, decide_eq_true_eq, not_or, Nat.not_lt]
      exact ⟨hcut, hm⟩
    · rw [hr]
  · have hrule := setCutoff_rule hk hcut hm hr
    refine ⟨fun hdue => hc.trans (takeRequest_refused h (hrule.trans (if_pos hdue))), fun hdue => ?_⟩
    intro close phase v closed due done
    have hphase : phase ≠ .due := by
      show (if _ then _ else _) ≠ _
      split
      · nofun
      · exact hdue
    have hv : s.modTrunk k (·.withCutoff cutoff.toNat margin.toNat s.clock.value) = v :=
      State.modTrunk_congr hr (Trunk.withCutoff_eq ..)
    have hrv : v.trunk? k = some { r with
        cutoff := cutoff.toNat, margin := margin.toNat, phase := phase } :=
      State.trunk?_modTrunk_self hr _
    have hclock : v.clock = s.clock := rfl
    rw [if_neg hdue, hv] at hrule
    have hdone (hflush : s.clock.running = true → cutoff.toNat ≤ s.clock.value →
        ∀ b ∈ r.window, b.standing ≠ .unreleased) : done (v.trunkTested k) := by
      refine hc.trans (takeRequest_testedClosing h hrule (flushesNothing_single fun hreached r' hr' => ?_))
      obtain ⟨hrun, hle⟩ := (State.cutoffReached_iff hrv hphase).1 hreached
      rw [hrv, Option.some.injEq] at hr'
      rw [← hr']
      exact hflush hrun hle
    clear_value v
    have hbusy (hle : close ≤ s.clock.value) : phase = r.phase :=
      if_neg fun hx => absurd hx.2 (Nat.not_lt.2 hle)
    refine ⟨fun hq => ?_, fun hrun hle hlt => ?_, fun hrun hle hflush => ?_⟩
    · rw [State.trunkTested_early hrv hphase (by rw [hclock]; exact hq)] at hdone
      refine hdone fun hrun hle => ?_
      rcases hq with hq | hq
      · rw [hq] at hrun; cases hrun
      · exact absurd hle (by omega)
    · rw [State.trunkTested_late hrv hphase (by rw [hclock]; exact hrun) (by rw [hclock]; exact hle)
        (by rw [hclock]; exact hlt)] at hdone
      rw [← hbusy hle]
      exact hdone fun _ hle' => absurd hle' (by omega)
    · rw [State.trunkTested_due hrv hphase (by rw [hclock]; exact hrun) (by rw [hclock]; exact hle)] at hdone
      exact hdone fun _ _ => hflush

end Sys2Proof.Machine

/-! PLACE and SET_DOOR (R53 to R55, R58): requests whose event is a pass at one door. -/

namespace Sys2Proof.Machine

variable {s t : State}

/-! ## Requests that hand on -/

/-- A request whose event has passes that hand on no more than their reports, and an attempt, where it
makes one, that releases nothing. -/
theorem takeRequest_handsOn {c : Instr} {rule : State → Taken} {e : Ev} {ds : List Nat}
    {served : Option Nat} {ts : List Nat} (h : s.restart = none) (hr : rule s = .event e)
    (hw : e.work = ds.map (fun d => .pass d served) ++ ts.map .attempt ++ closing) (hrun : e.running = [])
    (hag : e.again = []) (hd : e.deferDoor = none) (hp : e.s.passesAlone served ds)
    (ht : ts = [] ∨ ∃ t, ts = [t] ∧ (e.s.afterPasses ds).attemptEnds t) (hn : ds.length ≤ 1000) :
    takeRequest c rule s =
      .next ((e.s.afterPasses ds).closeEvent.giveResult (s.isDue c) .done none) := by
  have hwork : e.work ++ [.answer (s.isDue c)] =
      ds.map (fun d => .pass d served) ++ ts.map .attempt ++ (closing ++ [.answer (s.isDue c)]) := by
    rw [hw, List.append_assoc _ closing]
  exact takeRequest_event h hr (drain_handsOn (e := { e with work := _ }) 4 hwork hrun hag hd hp ht
    (drain_closing_answer rfl)) (by omega)

theorem State.afterPasses_single (s : State) (d : Nat) : s.afterPasses [d] = s.afterPass d := rfl

/-- A request whose event is a pass at one door, and an attempt or none. -/
theorem takeRequest_pass {c : Instr} {rule : State → Taken} {v : State} {d : Nat}
    {served : Option Nat} {ts : List Nat} (h : s.restart = none)
    (hr : rule s = .event { s := v, work := .pass d served :: (ts.map .attempt ++ closing) })
    (hp : v.passAlone d served) (ht : ts = [] ∨ ∃ t, ts = [t] ∧ (v.afterPass d).attemptEnds t) :
    takeRequest c rule s =
      .next ((v.afterPass d).closeEvent.giveResult (s.isDue c) .done none) := by
  rw [← State.afterPasses_single] at ht ⊢
  exact takeRequest_handsOn (e := { s := v, work := .pass d served :: (ts.map .attempt ++ closing) })
    (ds := [d]) h hr rfl rfl rfl rfl ⟨hp, trivial⟩ ht (by simp)

/-! ## A pass with no pallet to serve (R86) -/

/-- No trunk at door `d` has a HELD pallet, nor a booking, unless it is DUE and the active one alone. -/
def State.doorIdle (s : State) (d : Nat) : Prop :=
  ∀ k r, ((s.door d).active = some k ∨ (s.door d).next = some k) → s.trunk? k = some r →
    r.held = [] ∧ (r.window = [] ∨ r.phase = .due ∧ (s.door d).next ≠ some k)

namespace State.doorIdle

variable {d : Nat}

theorem carryOverAll {k : Option Nat} (h : ∀ j r, k = some j → s.trunk? j = some r → r.held = []) :
    s.carryOverAll k d = s := by
  unfold State.carryOverAll
  cases k with
  | none => rfl
  | some j =>
    dsimp only
    split
    · rfl
    · rename_i r hr
      rw [h j r rfl hr]
      rfl

theorem hasCarryOver {k : Option Nat} (h : ∀ j r, k = some j → s.trunk? j = some r → r.held = []) :
    s.hasCarryOver k d = false := by
  unfold State.hasCarryOver
  cases k with
  | none => rfl
  | some j =>
    rw [Option.bind_some]
    split
    · rfl
    · rename_i r hr
      rw [h j r rfl hr]
      rfl

theorem waiting {k : Option Nat} {wanted : Drop → Bool}
    (h : ∀ j r, k = some j → s.trunk? j = some r → r.window = [] ∧ r.held = []) :
    s.waiting k wanted = [] := by
  unfold State.waiting
  cases k with
  | none => rfl
  | some j =>
    rw [Option.bind_some]
    split
    · rfl
    · rename_i r hr
      obtain ⟨hw, hh⟩ := h j r rfl hr
      rw [State.stagedWaiting, State.heldWaiting, hw, hh]
      rfl

theorem passTrunk {j : Nat} {r : Trunk} (h : s.passTrunk d = some j) (hr : s.trunk? j = some r) :
    (s.door d).active = some j ∧ r.phase ≠ .due := by
  unfold State.passTrunk at h
  obtain ⟨ha, hp⟩ := Option.filter_eq_some_iff.1 h
  rw [hr] at hp
  exact ⟨ha, of_decide_eq_true hp⟩

/-- Such a pass changes nothing and hands on nothing but its report. -/
theorem grantPass (h : s.doorIdle d) : s.grantPass d = { state := s } := by
  have hactive : ∀ j r, (s.door d).active = some j → s.trunk? j = some r → r.held = [] :=
    fun j r hj hr => (h j r (.inl hj) hr).1
  have hnext : ∀ j r, (s.door d).next = some j → s.trunk? j = some r → r.window = [] ∧ r.held = [] :=
    fun j r hj hr => ⟨(h j r (.inr hj) hr).2.resolve_right fun hx => hx.2 hj, (h j r (.inr hj) hr).1⟩
  have hserved (wanted : Drop → Bool) : s.waiting (s.passTrunk d) wanted = [] := by
    refine waiting fun j r hj hr => ?_
    obtain ⟨ha, hp⟩ := passTrunk hj hr
    obtain ⟨hh, hw⟩ := h j r (.inl ha) hr
    exact ⟨hw.resolve_right fun hx => hp hx.1, hh⟩
  have hwaits (wanted : Drop → Bool) : s.waiting (s.door d).next wanted = [] :=
    waiting fun j r hj hr => hnext j r hj hr
  unfold State.grantPass
  dsimp only
  rw [hasCarryOver hactive, carryOverAll hactive, carryOverAll fun j r hj hr => (hnext j r hj hr).2,
    hserved, hserved, hwaits]
  rfl

theorem passAlone (h : s.doorIdle d) (served : Option Nat) : s.passAlone d served := by
  rw [State.passAlone, h.grantPass]
  exact ⟨rfl, nofun⟩

theorem afterPass (h : s.doorIdle d) : s.afterPass d = s.reportLanePressure := by
  rw [State.afterPass, h.grantPass]

end State.doorIdle

/-! ## Reports made twice -/

theorem State.lanePressed_report (s : State) (c : CondName) (x : Option Subject) (d : Nat) :
    (s.report c x).lanePressed d = s.lanePressed d := by
  unfold State.lanePressed State.hasHeld
  rw [State.door_report]
  simp only [State.trunk?_report]

/-- A second report of LANE_PRESSURE changes nothing. -/
theorem State.reportLanePressure_again (s : State) :
    s.reportLanePressure.reportLanePressure = s.reportLanePressure := by
  have hsame : (doorNumbers.find? s.reportLanePressure.lanePressed) = doorNumbers.find? s.lanePressed := by
    congr 1
    funext d
    exact State.lanePressed_report ..
  have hagain : s.reportLanePressure.reportLanePressure =
      s.reportLanePressure.report .lanePressure ((doorNumbers.find? s.lanePressed).map Subject.door) := by
    rw [← hsame]
    rfl
  rw [hagain]
  exact State.report_of_raw (State.raw_report ..)

theorem State.closeEvent_reported (s : State) : s.reportLanePressure.closeEvent = s.closeEvent := by
  rw [State.closeEvent, State.reportLanePressure_again, State.closeEvent]

/-! ## PLACE (R53 to R55) -/

section
variable {k d : Nat} {r : Trunk}

theorem placeTests_outOfRange {ok : Bool} (h : ¬(isTrunkNumber k = true ∧ isDoorNumber d = true) ∨ ok = false) :
    placeTests k d ok s = some .outOfRange := by
  refine if_pos ?_
  rw [not_and_or, Bool.not_eq_true, Bool.not_eq_true] at h
  rcases h with (h | h) | h <;> rw [h] <;> simp

theorem placeTests_inRange (hk : isTrunkNumber k = true) (hd : isDoorNumber d = true) :
    placeTests k d true s = match s.trunk? k with
      | none => some .noSuch
      | some r =>
          if (s.door d).slots = 0 then some .wrongState
          else if r.door?.any (· ≠ d) then some .wrongState
          else none := by
  refine if_neg ?_
  rw [hk, hd]
  nofun

theorem placeTests_wrongState (hk : isTrunkNumber k = true) (hd : isDoorNumber d = true)
    (hr : s.trunk? k = some r) (h : (s.door d).slots = 0 ∨ ∃ e, r.door? = some e ∧ e ≠ d) :
    placeTests k d true s = some .wrongState := by
  rw [placeTests_inRange hk hd, hr]
  dsimp only
  split
  · rfl
  · obtain ⟨e, he, hne⟩ := h.resolve_left ‹_›
    rw [he]
    exact if_pos (by simpa using hne)

theorem placeTests_pass (hk : isTrunkNumber k = true) (hd : isDoorNumber d = true)
    (hr : s.trunk? k = some r) (hs : (s.door d).slots ≠ 0) (h : ∀ e, r.door? = some e → e = d) :
    placeTests k d true s = none := by
  rw [placeTests_inRange hk hd, hr]
  dsimp only
  rw [if_neg hs]
  refine if_neg ?_
  cases hdoor : r.door? with
  | none => nofun
  | some e => simp [h e hdoor]

theorem placeActiveRule_refused {ok : Bool} {x : Result} (h : placeTests k d ok s = some x) :
    placeActiveRule k d ok s = .refused x := by
  rw [placeActiveRule, h]

theorem placeNextRule_refused {x : Result} (h : placeTests k d true s = some x) :
    placeNextRule k d s = .refused x := by
  rw [placeNextRule, h]

theorem placeActiveRule_free (h : placeTests k d true s = none) (ha : (s.door d).active = none) :
    placeActiveRule k d true s =
      .event { s := s.placeActive k d, work := [.pass d (some k), .attempt k] ++ closing } := by
  rw [placeActiveRule, h]
  exact if_neg (by rw [ha]; nofun)

theorem placeNextRule_tested (h : placeTests k d true s = none) (hn : (s.door d).next ≠ some k) :
    placeNextRule k d s =
      if (s.door d).active = some k then .refused .wrongState
      else match (s.door d).next with
        | none => .event { s := s.placeNext k d, work := .pass d none :: closing }
        | some u =>
            if s.laneHolds u d then .refused .inUse
            else .event
              { s := (s.modTrunk u fun r => { r with placement := .unplaced }).placeNext k d
                work := .pass d none :: closing } := by
  rw [placeNextRule, h]
  exact if_neg hn

theorem State.laneHolds_iff (s : State) (u d : Nat) : s.laneHolds u d = true ↔
    ∃ e ∈ s.pallets, e.2.trunk = some u ∧ (e.2.claimDoor = some d ∨ e.2.location = .lane d) := by
  simp [State.laneHolds, List.any_eq_true]

/-- A trunk without bookings that becomes the active trunk leaves its door with nothing to serve. -/
theorem State.doorIdle_placeActive (hd : isDoorNumber d = true) (hr : s.trunk? k = some r)
    (hw : r.window = []) (hh : r.held = []) (hn : (s.door d).next = none ∨ (s.door d).next = some k) :
    (s.placeActive k d).doorIdle d := by
  rw [isDoorNumber_iff] at hd
  have hdoor : (s.placeActive k d).door d = _ :=
    (State.door_modDoor (s.modTrunk k _) d d _ hd.1 hd.2).trans (if_pos rfl)
  have htrunk : (s.placeActive k d).trunk? k = some { r with placement := .active d } :=
    State.trunk?_modTrunk_self hr _
  intro j r' hj hr'
  have hjk : j = k := by
    rw [hdoor, show (s.modTrunk k fun r => { r with placement := .active d }).door d = s.door d from rfl] at hj
    rcases hn with hn | hn
    · rw [hn, if_neg (by nofun)] at hj
      rcases hj with hj | hj
      · exact (Option.some.inj hj).symm
      · cases hj
    · rw [if_pos hn] at hj
      rcases hj with hj | hj
      · exact (Option.some.inj hj).symm
      · cases hj
  subst hjk
  rw [htrunk, Option.some.injEq] at hr'
  subst hr'
  exact ⟨hh, .inl hw⟩

/-- A trunk without bookings that becomes the next trunk of a door without an active one likewise. -/
theorem State.doorIdle_placeNext (hd : isDoorNumber d = true) (hr : s.trunk? k = some r)
    (hw : r.window = []) (hh : r.held = []) (ha : (s.door d).active = none) :
    (s.placeNext k d).doorIdle d := by
  rw [isDoorNumber_iff] at hd
  have hdoor : (s.placeNext k d).door d = { s.door d with next := some k, nextPending := true } :=
    (State.door_modDoor (s.modTrunk k _) d d _ hd.1 hd.2).trans (if_pos rfl)
  have htrunk : (s.placeNext k d).trunk? k = some { r with placement := .next d } :=
    State.trunk?_modTrunk_self hr _
  intro j r' hj hr'
  have hjk : j = k := by
    rw [hdoor] at hj
    rcases hj with hj | hj
    · rw [show (Door.active { s.door d with next := some k, nextPending := true }) = (s.door d).active
        from rfl, ha] at hj
      cases hj
    · exact (Option.some.inj hj).symm
  subst hjk
  rw [htrunk, Option.some.injEq] at hr'
  subst hr'
  exact ⟨hh, .inl hw⟩

/-- A trunk without bookings has nothing to release. -/
theorem State.attemptEnds_ofEmpty (hr : s.trunk? k = some r) (hw : r.window = []) : s.attemptEnds k := by
  intro r' d hr' _
  rw [hr, Option.some.injEq] at hr'
  subst hr'
  exact .inr (.inr ⟨by rw [hw]; simp, by rw [hw]; nofun⟩)

end

/-- Settles O42: the tests in order, then the pass at the door, which a trunk without bookings leaves
nothing to grant. -/
theorem placeMakesTheTrunkActiveOrNext : Obligations.PlaceMakesTheTrunkActiveOrNext := by
  intro s trunk door mode h hmode k d a n refuse numbers
  have ha : exec a s = takeRequest a (placeActiveRule k d (decide (mode = 0))) s := rfl
  have hn : exec n s = takeRequest n (placeNextRule k d) s := rfl
  have refuseA {x : Result} (hx : placeTests k d (decide (mode = 0)) s = some x) : refuse a x :=
    ha.trans (takeRequest_refused h (placeActiveRule_refused hx))
  have refuseN {x : Result} (hx : placeTests k d true s = some x) : refuse n x :=
    hn.trans (takeRequest_refused h (placeNextRule_refused hx))
  refine ⟨fun hx => refuseA (placeTests_outOfRange (hx.imp_right decide_eq_false)),
    fun hx => refuseN (placeTests_outOfRange (.inl hx)), fun ⟨hk, hd⟩ hr => ?_, fun r ⟨hk, hd⟩ hr => ?_⟩
  · have htest : placeTests k d true s = some .noSuch := by rw [placeTests_inRange hk hd, hr]
    exact ⟨fun h0 => refuseA (by rw [decide_eq_true h0]; exact htest), refuseN htest⟩
  · refine ⟨fun hx => ?_, fun hs hdoor => ?_⟩
    · have htest := placeTests_wrongState hk hd hr hx
      exact ⟨fun h0 => refuseA (by rw [decide_eq_true h0]; exact htest), refuseN htest⟩
    · have htest := placeTests_pass hk hd hr hs hdoor
      have ha0 (h0 : mode = 0) : exec a s = takeRequest a (placeActiveRule k d true) s := by
        rw [ha, decide_eq_true h0]
      have place (h0 : mode = 0) (hactive : (s.door d).active = none)
          (hp : (s.placeActive k d).passAlone d (some k))
          (ht : ((s.placeActive k d).afterPass d).attemptEnds k) : exec a s =
          .next (((s.placeActive k d).afterPass d).closeEvent.giveResult (s.isDue a) .done none) :=
        (ha0 h0).trans (takeRequest_pass (ts := [k]) h (placeActiveRule_free htest hactive) hp
          (.inr ⟨k, rfl, ht⟩))
      have nextEvent {v : State} (hrule : placeNextRule k d s =
          .event { s := v, work := .pass d none :: closing }) (hp : v.passAlone d none) :
          exec n s = .next ((v.afterPass d).closeEvent.giveResult (s.isDue n) .done none) :=
        hn.trans (takeRequest_pass (ts := []) h hrule hp (.inl rfl))
      refine ⟨fun h0 hactive => ?_, fun h0 hactive hw hh hnext => ?_, fun hnext => ?_,
        fun hnext hactive => ?_, fun hactive hnext hw hh => ?_, fun h0 hactive => ?_,
        fun hnext hactive => ?_⟩
      · refine (ha0 h0).trans (takeRequest_refused h ?_)
        rw [placeActiveRule, htest]
        exact if_pos hactive
      · have hidle := State.doorIdle_placeActive hd hr hw hh hnext
        have htrunk : (s.placeActive k d).reportLanePressure.trunk? k =
            some { r with placement := .active d } :=
          (State.trunk?_report ..).trans (State.trunk?_modTrunk_self hr _)
        have hplace := place h0 hactive (hidle.passAlone _)
          (by rw [hidle.afterPass]; exact State.attemptEnds_ofEmpty htrunk hw)
        rw [hidle.afterPass, State.closeEvent_reported] at hplace
        exact hplace
      · refine hn.trans (takeRequest_done h ?_)
        rw [placeNextRule, htest]
        exact if_pos hnext
      · refine hn.trans (takeRequest_refused h ((placeNextRule_tested htest hnext).trans (if_pos hactive)))
      · have hidle := State.doorIdle_placeNext hd hr hw hh hactive
        have hrule : placeNextRule k d s =
            .event { s := s.placeNext k d, work := .pass d none :: closing } := by
          rw [placeNextRule_tested htest (by rw [hnext]; nofun), hactive, hnext]
          rfl
        have hplace := nextEvent hrule (hidle.passAlone _)
        rw [hidle.afterPass, State.closeEvent_reported] at hplace
        exact hplace
      · exact fun hp ht => place h0 hactive hp ht
      · have hrule := (placeNextRule_tested htest hnext).trans (if_neg hactive)
        refine ⟨fun hnone hp => ?_, fun u hu => ?_⟩
        · rw [hnone] at hrule
          exact nextEvent hrule hp
        · rw [hu] at hrule
          refine ⟨fun hheld => ?_, fun hheld hp => ?_⟩
          · exact hn.trans (takeRequest_refused h (hrule.trans (if_pos ((s.laneHolds_iff u d).2 hheld))))
          · exact nextEvent (hrule.trans (if_neg (mt (s.laneHolds_iff u d).1 hheld))) hp

/-! ## SET_DOOR (R58) -/

/-- A pass, the attempt it requests, where that releases nothing, and its passes at other doors, which
hand on no more than their reports (R88). -/
theorem drain_pass_handsOn {e : Ev} {d : Nat} {ws : List Work} {u : State} (n : Nat)
    (hw : e.work = .pass d none :: ws) (hrun : e.running = []) (hag : e.again = [])
    (hd : e.deferDoor = none)
    (ht : ∀ t, (e.s.grantPass d).staged = true → ((e.s.grantPass d).state.door d).active = some t →
      (e.s.grantPass d).state.attemptEnds t)
    (hp : (e.s.grantPass d).state.passesAlone none (e.s.grantPass d).doors)
    (hu : drain n { e with
      work := ws
      s := ((e.s.grantPass d).state.afterPasses (e.s.grantPass d).doors).reportLanePressure } = some u) :
    drain (n + 1 + 2 * (e.s.grantPass d).doors.length + 131 + 1) e = some u := by
  obtain ⟨g, hg⟩ : ∃ g, g = e.s.grantPass d := ⟨_, rfl⟩
  rw [← hg] at ht hp hu ⊢
  have hrest : drain (n + 1 + 2 * g.doors.length) { e with
      s := g.state
      work := g.doors.map (fun d => Work.pass d none) ++ (.lanePressure :: ws) } = some u := by
    rw [drain_passes_alone (e := { e with
      s := g.state
      work := g.doors.map (fun d => Work.pass d none) ++ (.lanePressure :: ws) }) (n + 1) g.doors rfl hd hp,
      drain_of_cons n rfl]
    exact hu
  have hpass : ({ e with work := ws } : Ev).pass d none = { e with
      s := g.state
      work := (match (g.state.door d).active with
        | some t => if g.staged && none ≠ some t then [Work.attempt t] else []
        | none => []) ++ (g.doors.map (fun d => Work.pass d none) ++ (.lanePressure :: ws)) } := by
    rw [hg, Ev.pass, if_neg (by rw [show Ev.deferDoor _ = none from hd]; nofun)]
    simp only [Ev.push, List.append_assoc, List.cons_append, List.nil_append] <;> rfl
  rw [drain_of_cons _ hw, Ev.perform, hpass]
  cases hactive : (g.state.door d).active with
  | none => exact drain_mono hrest (by omega)
  | some t =>
    cases hstaged : g.staged with
    | false => exact drain_mono hrest (by omega)
    | true =>
      exact drain_attempt_ends (n + 1 + 2 * g.doors.length) rfl hrun hag hd (ht t hstaged hactive) hrest

theorem doorInRange_iff (d : Nat) (slots : Byte) (reserve depth burst : Nat) :
    doorInRange d slots.toNat reserve depth burst = true ↔ isDoorNumber d = true ∧ slots.toNat ≤ 24 ∧
      reserve ≤ 23 ∧ 1 ≤ depth ∧ depth ≤ 4 ∧ burst ≤ 4 ∧ (slots ≠ 0 → reserve < slots.toNat) := by
  have hzero : slots.toNat = 0 ↔ slots = 0 := by rw [← BitVec.toNat_inj]; rfl
  have himp : (slots = 0 ∨ reserve < slots.toNat) ↔ (slots ≠ 0 → reserve < slots.toNat) := by
    rw [ne_eq, ← or_iff_not_imp_left]
  simp only [doorInRange, Bool.and_eq_true, Bool.or_eq_true, decide_eq_true_eq, beq_iff_eq, hzero, himp,
    and_assoc]

theorem setDoor_ranged {d slots reserve depth burst : Nat}
    (h : doorInRange d slots reserve depth burst = true) : setDoor d slots reserve depth burst s =
      if slots < (s.door d).claims || (slots == 0 && ((s.door d).active.isSome || (s.door d).next.isSome))
        then .refused .inUse
      else if (s.door d).withSettings slots reserve depth burst = s.door d then .done s none
      else .event
        { s := s.modDoor d (·.withSettings slots reserve depth burst), work := .pass d none :: closing } := by
  unfold setDoor
  dsimp only
  rw [h]
  rfl

/-- A request whose event is a pass at one door, with all that it hands on. -/
theorem takeRequest_passHandsOn {c : Instr} {rule : State → Taken} {v : State} {d : Nat}
    (h : s.restart = none) (hr : rule s = .event { s := v, work := .pass d none :: closing })
    (ht : ∀ t, (v.grantPass d).staged = true → ((v.grantPass d).state.door d).active = some t →
      (v.grantPass d).state.attemptEnds t)
    (hn : (v.grantPass d).doors.length ≤ 24)
    (hp : (v.grantPass d).state.passesAlone none (v.grantPass d).doors) : takeRequest c rule s =
      .next ((((v.grantPass d).state.afterPasses (v.grantPass d).doors).reportLanePressure).closeEvent.giveResult
        (s.isDue c) .done none) := by
  have hclose := drain_closing_answer (due := s.isDue c) (e := {
    s := ((v.grantPass d).state.afterPasses (v.grantPass d).doors).reportLanePressure
    work := closing ++ [.answer (s.isDue c)] }) rfl
  have hdrain := drain_pass_handsOn (e := {
    s := v, work := .pass d none :: (closing ++ [.answer (s.isDue c)]) }) 4 rfl rfl rfl rfl ht hp hclose
  exact takeRequest_event h hr hdrain (by dsimp only; omega)

/-- Settles O45: the tests in order; the pass at a door without trunks grants nothing, and any other is
followed by its hand-ons. -/
theorem setDoorReplacesTheSettings : Obligations.SetDoorReplacesTheSettings := by
  intro s door slots reserve depth burst h c x y inRange inUse
  have hc : exec c s = takeRequest c
      (setDoor door.toNat slots.toNat reserve.toNat depth.toNat burst.toNat) s := rfl
  have hrange : _ ↔ inRange := doorInRange_iff door.toNat slots reserve.toNat depth.toNat burst.toNat
  have hzero : slots.toNat = 0 ↔ slots = 0 := by rw [← BitVec.toNat_inj]; rfl
  have huse : (decide (slots.toNat < (s.door door.toNat).claims) || (slots.toNat == 0 &&
      ((s.door door.toNat).active.isSome || (s.door door.toNat).next.isSome))) = true ↔ inUse := by
    simp only [Bool.or_eq_true, Bool.and_eq_true, decide_eq_true_eq, beq_iff_eq, hzero]
    exact Iff.rfl
  refine ⟨fun hn => ?_, fun hi hu => ?_, fun hi hu hy => ?_, fun hi hu hy => ?_⟩
  · refine hc.trans (takeRequest_refused h (if_pos ?_))
    rw [Bool.eq_false_iff.2 (mt hrange.1 hn)]
    rfl
  all_goals have hrule := setDoor_ranged (s := s) (hrange.2 hi)
  · exact hc.trans (takeRequest_refused h (hrule.trans (if_pos (huse.2 hu))))
  · exact hc.trans (takeRequest_done h (hrule.trans ((if_neg (mt huse.1 hu)).trans (if_pos hy))))
  · intro d v
    have hevent : setDoor door.toNat slots.toNat reserve.toNat depth.toNat burst.toNat s =
        .event { s := v, work := .pass d none :: closing } :=
      hrule.trans ((if_neg (mt huse.1 hu)).trans (if_neg hy))
    refine ⟨fun ha hnext => ?_, fun ht hn hp => ?_⟩
    · obtain ⟨hd, -⟩ := hi
      rw [isDoorNumber_iff] at hd
      have hdoor : v.door d = y := (State.door_modDoor s d d _ hd.1 hd.2).trans (if_pos rfl)
      have hidle : v.doorIdle d := by
        intro k r hk _
        rw [hdoor] at hk
        rcases hk with hk | hk
        · rw [show y.active = none from ha] at hk; cases hk
        · rw [show y.next = none from hnext] at hk; cases hk
      have hpass := takeRequest_pass (c := c) (ts := []) h hevent (hidle.passAlone none) (.inl rfl)
      rw [hidle.afterPass, State.closeEvent_reported] at hpass
      exact hc.trans hpass
    · clear_value v
      exact hc.trans (takeRequest_passHandsOn h hevent ht hn hp)

end Sys2Proof.Machine

/-! Scans of known labels that hand on (sections 7.4 and 8.3): the scan's answer, and REWORK scans. -/

namespace Sys2Proof.Machine

variable {s t : State}

/-! ## The answer of a scan -/

/-- The answer of a scan whose event has ended in state `t` but for its closing. -/
def State.answerScan (t : State) (src : Address) (kind : Byte) (echo : ScanFields) (r : VerdictResult)
    (pos : Option Nat) (kingpin : Int) (axle : Nat) : Host.Outcome State Fault Refusal :=
  .next (t.closeEvent.sendVerdict src { t.closeEvent.verdictOf kind echo r with
    position := pos, kingpin := kingpin, axle := axle })

/-- The candidate index of a verdict from the record is 0. -/
theorem State.verdictOf_noCandidate (s : State) (kind : Byte) (scan : ScanFields) (r : VerdictResult)
    (pos : Option Nat) (kingpin : Int) (axle : Nat) : { s.verdictOf kind scan r with
      candidate := 0, position := pos, kingpin := kingpin, axle := axle } =
      { s.verdictOf kind scan r with position := pos, kingpin := kingpin, axle := axle } := by
  unfold State.verdictOf
  cases s.pallet? scan.label <;> rfl

theorem State.answerScan_plain (t : State) (src : Address) (kind : Byte) (echo : ScanFields)
    (r : VerdictResult) : t.answerScan src kind echo r none 0 0 =
      .next (t.closeEvent.sendVerdict src (t.closeEvent.verdictOf kind echo r)) := by
  rw [State.answerScan, ← State.verdictOf_noCandidate, State.verdictOf_plain]

theorem State.answerScan_position (t : State) (src : Address) (kind : Byte) (echo : ScanFields)
    (r : VerdictResult) (pos : Option Nat) : t.answerScan src kind echo r pos 0 0 =
      .next (t.closeEvent.sendVerdict src { t.closeEvent.verdictOf kind echo r with position := pos }) := by
  have hsame (u : State) : { u.verdictOf kind echo r with position := pos, kingpin := 0, axle := 0 } =
      { u.verdictOf kind echo r with position := pos } := by
    unfold State.verdictOf
    cases u.pallet? echo.label <;> rfl
  rw [State.answerScan, hsame]

/-- A scan of a known label whose event hands on passes with no more than their reports, and an attempt,
where it makes one, that releases nothing. -/
theorem takeScan_handsOn {src : Address} {kind : Byte} {scan : ScanFields} {k : PlaceKind} {p : Pallet}
    {e : Ev} {r : VerdictResult} {ds : List Nat} {served : Option Nat} {ts : List Nat}
    (hk : placeKindOf kind = some k) (h : s.ScanPasses k scan) (hp : s.pallet? scan.label = some p)
    (hx : scanKnown (s.enterRepeat k scan.number.toNat scan.label) k p (clampScan scan) = (e, r))
    (hw : e.work = ds.map (fun d => .pass d served) ++ ts.map .attempt) (hrun : e.running = [])
    (hag : e.again = []) (hd : e.deferDoor = none) (hc : e.candidate = 0)
    (hpass : e.s.passesAlone served ds)
    (ht : ts = [] ∨ ∃ t, ts = [t] ∧ (e.s.afterPasses ds).attemptEnds t) (hn : ds.length ≤ 1000) :
    takeScan src kind scan s =
      (e.s.afterPasses ds).answerScan src kind (clampScan scan) r e.position e.kingpin e.axle := by
  have hevent : scanEvent (s.enterRepeat k scan.number.toNat scan.label) k (clampScan scan) = (e, r) :=
    (scanEvent_known (s := s.enterRepeat k scan.number.toNat scan.label) (scan := clampScan scan) hp).trans hx
  rw [takeScan_event hk h hevent, finishScan_handsOn (x := (e, r)) hw hrun hag hd hpass ht hn, hc,
    State.verdictOf_noCandidate]
  rfl

/-- A scan of a known label whose event has nothing to hand on. -/
theorem takeScan_calm {src : Address} {kind : Byte} {scan : ScanFields} {k : PlaceKind} {p : Pallet}
    {v : State} {l : Label} {r : VerdictResult} {pos : Option Nat} (hk : placeKindOf kind = some k)
    (h : s.ScanPasses k scan) (hp : s.pallet? scan.label = some p)
    (hx : scanKnown (s.enterRepeat k scan.number.toNat scan.label) k p (clampScan scan) =
      ({ Ev.ofScan v l with position := pos }, r)) :
    takeScan src kind scan s = v.answerScan src kind (clampScan scan) r pos 0 0 :=
  takeScan_handsOn (e := { Ev.ofScan v l with position := pos }) (ds := []) (served := none) (ts := [])
    hk h hp hx rfl rfl rfl rfl rfl trivial (.inl rfl) (Nat.zero_le _)

/-! ## REWORK scans (R142 to R144) -/

theorem reworkKnown_take {p : Pallet} (h : p.state = .exception ∨ p.state = .misloaded) :
    reworkKnown s p = reworkTake s p := by
  unfold reworkKnown
  rcases h with h | h <;> rw [h]

theorem reworkKnown_booked {p : Pallet} {k : Nat} (h : p.state = .held ∨ p.state = .laneBound ∨
    p.state = .staged ∨ p.state = .loadBound) (hk : p.trunk = some k) :
    reworkKnown s p = reworkWithdraw s p k := by
  unfold reworkKnown
  rcases h with h | h | h | h <;> rw [h, hk]

/-- The trunk's record after a withdrawn release and the booking's leave (R69, R75). -/
def Trunk.withdraw (r : Trunk) (l : Label) (b : Booking) : Trunk :=
  { r with
    window := r.window.filter (·.label ≠ l)
    bookedQuarters := r.bookedQuarters - b.quarters, bookedKg := r.bookedKg - b.kg
    held := r.held.filter (· ≠ l)
    inFlight := if b.standing = .released then r.inFlight - 1 else r.inFlight }

/-- A booking leaves its trunk, a release of it withdrawn first, as one change of the record. -/
theorem State.withdrawBooking_eq {k : Nat} {r : Trunk} {l : Label} {b : Booking}
    (hr : s.trunk? k = some r) (hb : r.booking? l = some b) :
    (s.withdrawRelease k l).withdrawBooking k l =
      (s.modTrunk k fun _ => r.withdraw l b).modPallet l fun p =>
        { p with trunk := none, drop := none, position := none } := by
  have hone : (s.withdrawRelease k l).modTrunk k (·.leave l) = s.modTrunk k fun _ => r.withdraw l b := by
    rw [State.withdrawRelease, State.modTrunk_modTrunk]
    refine State.modTrunk_congr hr ?_
    have hstanding : (Option.any (·.standing = .released) (some b)) = decide (b.standing = .released) := rfl
    rw [hb, hstanding]
    by_cases hs : b.standing = .released
    · rw [decide_eq_true hs, if_pos rfl]
      have hb' : ({ r with inFlight := r.inFlight - 1 } : Trunk).booking? l = some b := hb
      rw [Trunk.leave, hb', Trunk.withdraw, if_pos hs]
      rfl
    · rw [decide_eq_false hs, if_neg (by nofun), Trunk.leave, hb, Trunk.withdraw, if_neg hs]
      rfl
  rw [State.withdrawBooking, hone]

/-- The trunks after a move's end and a claim's release. -/
theorem State.trunk?_ended (s : State) (l : Label) (k : Nat) : (s.endMove l).trunk? k = s.trunk? k := by
  obtain ⟨_, _, _, _, _, e⟩ := s.takeMove_eq l false
  rw [State.endMove, e]
  rfl

theorem State.trunk?_releaseClaim (s : State) (l : Label) (k : Nat) :
    (s.releaseClaim l).trunk? k = s.trunk? k := by
  obtain ⟨_, _, e⟩ := s.releaseClaim_shape l
  rw [e]
  rfl

theorem passesAt_append (ds : List Nat) (k : Nat) (follows : Bool) :
    passesAt ds k follows ++ (if follows then [.attempt k] else []) =
      ds.dedup.map (fun d => .pass d (if follows then some k else none)) ++
        (if follows then [k] else []).map .attempt := by
  unfold passesAt
  cases follows <;> rfl

theorem length_dedup_le {ds : List Nat} {n : Nat} (h : ds.length ≤ n) : ds.dedup.length ≤ n :=
  (List.dedup_sublist ds).length_le.trans h

/-- The passes of a label's claim door, and of a trunk's door where its loading drop has changed. -/
theorem length_doors_le {o a : Option Nat} {c : Prop} [Decidable c] :
    (o.toList ++ if c then a.toList else []).length ≤ 2 := by
  rw [List.length_append]
  have ho : o.toList.length ≤ 1 := by cases o <;> simp
  have ha : (if c then a.toList else []).length ≤ 1 := by
    split
    · cases a <;> simp
    · simp
  omega

/-- A booked pallet taken off its trunk in the rework area (R143). -/
theorem reworkWithdraw_eq {p : Pallet} {k : Nat} {r : Trunk} {b : Booking} (hr : s.trunk? k = some r)
    (hb : r.booking? p.label = some b) : reworkWithdraw s p k =
      ({ Ev.ofScan ((((s.endMove p.label).releaseClaim p.label).modTrunk k fun _ =>
          r.withdraw p.label b).modPallet p.label fun q => { q with
            trunk := none, drop := none, position := none, state := .atRework, location := .rework })
          p.label with
        work := passesAt (p.claimDoor.toList ++ if r.activeDoor?.isSome ∧
            (r.withdraw p.label b).loadingDrop ≠ r.loadingDrop then r.activeDoor?.toList else []) k
            r.activeDoor?.isSome ++
          if r.activeDoor?.isSome then [.attempt k] else [] }, .atRework) := by
  have hfreed : ((s.endMove p.label).releaseClaim p.label).trunk? k = some r := by
    rw [State.trunk?_releaseClaim, State.trunk?_ended, hr]
  obtain ⟨v, hv⟩ : ∃ v, v = (((s.endMove p.label).releaseClaim p.label).modTrunk k fun _ =>
      r.withdraw p.label b).modPallet p.label fun q => { q with
        trunk := none, drop := none, position := none, state := .atRework, location := .rework } := ⟨_, rfl⟩
  have hstate : State.modPallet (State.withdrawBooking (State.withdrawRelease
      ((s.endMove p.label).releaseClaim p.label) k p.label) k p.label) p.label
        (fun p => { p with state := .atRework, location := .rework }) = v := by
    rw [State.withdrawBooking_eq hfreed hb, State.modPallet_modPallet, hv]
  have htrunk : v.trunk? k = some (r.withdraw p.label b) := by
    rw [hv]
    exact State.trunk?_modTrunk_self hfreed _
  have hhome : (r.withdraw p.label b).activeDoor? = r.activeDoor? := rfl
  have hchanged : (r.activeDoor?.isSome && decide (some (r.withdraw p.label b).loadingDrop ≠
      some r.loadingDrop)) = true ↔
      r.activeDoor?.isSome ∧ (r.withdraw p.label b).loadingDrop ≠ r.loadingDrop := by
    simp only [Bool.and_eq_true, decide_eq_true_eq, ne_eq, Option.some.injEq]
  rw [← hv]
  unfold reworkWithdraw
  dsimp only
  rw [hstate, htrunk, hr, Option.bind_some, Option.map_some, Option.map_some, hhome, if_congr hchanged rfl rfl]

/-- Settles O25, by the pallet's state and its trunk. -/
theorem reworkScanTakesThePalletIn : Obligations.ReworkScanTakesThePalletIn := by
  intro s src scan p h hp hl entered answer
  have hplain (v : State) : v.answerScan src 3 (clampScan scan) .atRework none 0 0 =
      .next (answer v.closeEvent) := State.answerScan_plain ..
  have calm {v : State} {r : VerdictResult} {pos : Option Nat}
      (hx : reworkKnown entered p = ({ Ev.ofScan v p.label with position := pos }, r)) :
      exec (.reworkScan src scan) s = v.answerScan src 3 (clampScan scan) r pos 0 0 :=
    (exec_reworkScan ..).trans (takeScan_calm (kind := 3) (k := .rework) rfl h hp hx)
  refine ⟨fun hs => ?_, fun hs => ?_, fun hs => ?_, fun u r b hs hu hr hb => ?_⟩
  · rw [← hplain, ← hl]
    exact calm (reworkKnown_take hs)
  · rw [← hplain]
    refine calm (v := entered) (pos := none) ?_
    unfold reworkKnown
    rw [hs]
    rfl
  · intro t
    have hloaded : reworkKnown entered p = reworkLoaded entered p := by
      unfold reworkKnown
      rw [hs]
    rw [calm hloaded, State.answerScan_position, hl]
  · intro gone v changed served ds hpass ht
    have hgone : gone = r.withdraw scan.label b := rfl
    have hwork := reworkWithdraw_eq (s := entered) (p := p) (k := u) hr (by rw [hl]; exact hb)
    rw [hl] at hwork
    have hds : ds = (p.claimDoor.toList ++ if r.activeDoor?.isSome ∧
        (r.withdraw scan.label b).loadingDrop ≠ r.loadingDrop then r.activeDoor?.toList else []).dedup :=
      congrArg (fun xs => (p.claimDoor.toList ++ xs).dedup) (if_congr Iff.rfl rfl rfl)
    rw [exec_reworkScan, takeScan_handsOn (k := .rework) (ds := ds) (served := served)
      (ts := if r.activeDoor?.isSome then [u] else []) rfl h hp ((reworkKnown_booked hs hu).trans hwork) ?_
      rfl rfl rfl rfl hpass ?_ ?_]
    · exact hplain _
    · rw [hds]
      exact passesAt_append ..
    · cases r.activeDoor?.isSome
      · exact .inl rfl
      · exact .inr ⟨u, rfl, ht⟩
    · rw [hds]
      exact (length_dedup_le length_doors_le).trans (by decide)

end Sys2Proof.Machine

/-! LOAD scans (section 7.4). -/

namespace Sys2Proof.Machine

variable {s t u : State}

/-! ## A booking that becomes LOADED (R134, R135) -/

/-- A trunk's record after booking `b` of label `l` becomes LOADED, with `release` fewer in flight. -/
def Trunk.loadedBy (r : Trunk) (l : Label) (b : Booking) (release : Nat) : Trunk :=
  { r with
    window := r.window.map fun x => if x.label = l then { x with standing := .loaded } else x
    loadedQuarters := r.loadedQuarters + b.quarters, loadedKg := r.loadedKg + b.kg
    inFlight := r.inFlight - release }

theorem Trunk.loadBooking_eq {r : Trunk} {l : Label} {b : Booking} (h : r.booking? l = some b) :
    r.loadBooking l = r.loadedBy l b 0 := by
  rw [Trunk.loadBooking, h]
  rfl

/-- The loading drop is read from the drops and the window alone (R122). -/
theorem Trunk.loadingDrop_congr {r x : Trunk} (hd : x.dropB = r.dropB) (hw : x.window = r.window) :
    x.loadingDrop = r.loadingDrop := by
  rw [Trunk.loadingDrop, Trunk.loadingDrop, hd, hw]

theorem Trunk.place_reads (r : Trunk) (f : Fit) (x : Projection) (q w : Nat) :
    (r.place f x q w).dropB = r.dropB ∧ (r.place f x q w).window = r.window := by
  cases f <;> exact ⟨rfl, rfl⟩

theorem State.classes_ended (s : State) (l : Label) :
    ((s.endMove l).releaseClaim l).classes = s.classes :=
  ((State.RoutesAs.takeMove s l false).trans (State.RoutesAs.releaseClaim ..)).classes

/-! ## The tests of R133 -/

section
variable {p : Pallet} {d k : Nat}

theorem loadKnown_noTrunk (h : (s.door d).active = none) : loadKnown s p d =
    (Ev.ofScan (s.raise .misload (.label p.label)) p.label, .lateLoad) := by
  rw [loadKnown, h]

theorem loadKnown_loaded (h : (s.door d).active = some k) (hs : p.state = .loaded) :
    loadKnown s p d = loadLoaded s p k := by
  rw [loadKnown, h]
  exact if_pos hs

theorem loadKnown_unbooked (h : (s.door d).active = some k) (hs : p.state ≠ .loaded)
    (hk : p.trunk = none) : loadKnown s p d = loadUnbookedMisload s p k := by
  rw [loadKnown, h]
  dsimp only
  rw [if_neg hs, hk]

theorem loadKnown_elsewhere {j : Nat} (h : (s.door d).active = some k) (hs : p.state ≠ .loaded)
    (hj : p.trunk = some j) (hne : j ≠ k) : loadKnown s p d = loadBookedMisload s p k j := by
  rw [loadKnown, h]
  dsimp only
  rw [if_neg hs, hj]
  exact if_pos hne

theorem loadKnown_planned (h : (s.door d).active = some k) (hs : p.state = .loadBound)
    (hk : p.trunk = some k) : loadKnown s p d = loadPlanned s p k := by
  rw [loadKnown, h]
  dsimp only
  rw [if_neg (by rw [hs]; nofun), hk]
  exact (if_neg (not_not.2 rfl)).trans (if_pos hs)

theorem loadKnown_unplanned {r : Trunk} (h : (s.door d).active = some k)
    (hs : p.state = .held ∨ p.state = .laneBound ∨ p.state = .staged) (hk : p.trunk = some k)
    (hr : s.trunk? k = some r) : loadKnown s p d = loadUnplanned s p k d r := by
  have hnot : p.state ≠ .loaded ∧ p.state ≠ .loadBound := by
    rcases hs with h | h | h <;> rw [h] <;> exact ⟨nofun, nofun⟩
  rw [loadKnown, h]
  dsimp only
  rw [if_neg hnot.1, hk, hr]
  exact (if_neg (not_not.2 rfl)).trans (if_neg hnot.2)

end

/-! ## Planned loads (R134) -/

/-- The state after a planned load. -/
def State.loadedPlanned (s : State) (l : Label) (k : Nat) (b : Booking) : State :=
  (((s.endMove l).modTrunk k (·.loadedBy l b 1)).modPallet l fun p =>
    { p with state := .loaded, location := .trailer k }).releaseClaim l

theorem loadPlanned_eq {p : Pallet} {k : Nat} {r : Trunk} {b : Booking} (hr : s.trunk? k = some r)
    (hb : r.booking? p.label = some b) : loadPlanned s p k =
      ({ Ev.ofScan (s.loadedPlanned p.label k b) p.label with
        position := p.position
        work := passesAt p.claimDoor.toList k true ++ [.attempt k] }, .loaded) := by
  have hone : (s.endMove p.label).modTrunk k (fun r =>
      { r.loadBooking p.label with inFlight := r.inFlight - 1 }) =
      (s.endMove p.label).modTrunk k (·.loadedBy p.label b 1) :=
    State.modTrunk_congr ((State.trunk?_ended ..).trans hr) (by rw [Trunk.loadBooking_eq hb]; rfl)
  unfold loadPlanned
  dsimp only
  rw [hone]
  rfl

/-! ## Unplanned loads (R135, R136) -/

/-- The state after an unplanned load, before its position. -/
def State.loadedUnplanned (s : State) (l : Label) (k : Nat) (b : Booking) : State :=
  ((((s.endMove l).releaseClaim l).modTrunk k fun r => { r with held := r.held.filter (· ≠ l) }).modTrunk k
    (·.loadedBy l b 0)).modPallet l fun p =>
      { p with state := .loaded, location := .trailer k, flags := { p.flags with unplanned := true } }

theorem unplannedPosition_noFit {p : Pallet} {k : Nat} {r : Trunk} {l : Label}
    (h : (r.fit (s.classOf r).rows p.quarters p.bookingKg).target? = none) :
    (Ev.ofScan s l).unplannedPosition p k r =
      (Ev.ofScan (s.modPallet p.label fun q => { q with flags := { q.flags with noFit := true } }) l,
        false) := by
  rw [Ev.unplannedPosition, show (Ev.ofScan s l).s = s from rfl, h]
  rfl

theorem unplannedPosition_fit {p : Pallet} {k pos : Nat} {r : Trunk} {l : Label}
    (h : (r.fit (s.classOf r).rows p.quarters p.bookingKg).target? = some pos) :
    (Ev.ofScan s l).unplannedPosition p k r =
      let x := r.project (s.classOf r) p.bookingKg pos
      ({ Ev.ofScan ((s.modTrunk k fun y => y.place (r.fit (s.classOf r).rows p.quarters p.bookingKg) x
          p.quarters p.bookingKg).modPallet p.label fun q => { q with position := some pos }) l with
        position := some pos, kingpin := x.kingpin, axle := x.axle }, !x.passes (s.classOf r)) := by
  rw [Ev.unplannedPosition, show (Ev.ofScan s l).s = s from rfl, h]
  rfl

/-- Whether a drop-A pallet is loaded before a drop-B booking still UNRELEASED (R135). -/
def Trunk.wrongOrder (r : Trunk) (p : Pallet) : Prop :=
  p.drop = some .a ∧ ∃ x ∈ r.window, x.drop = .b ∧ x.standing = .unreleased

theorem Trunk.wrongOrder_iff (r : Trunk) (p : Pallet) : (decide (p.drop = some .a) &&
    r.window.any fun b => b.drop = .b && b.standing = .unreleased) = true ↔ r.wrongOrder p := by
  simp [Trunk.wrongOrder, List.any_eq_true]

/-- The event of an unplanned load, by the position it takes and whether MISLOAD is raised. -/
theorem loadUnplanned_of {p : Pallet} {k d : Nat} {r : Trunk} {b : Booking} {e : Ev} {failed : Bool}
    {r' : Trunk} (hr : s.trunk? k = some r) (hb : r.booking? p.label = some b)
    (he : (Ev.ofScan (s.loadedUnplanned p.label k b) p.label).unplannedPosition p k r = (e, failed))
    (hr' : e.s.trunk? k = some r') :
    ∃ v, (v = if (decide (p.drop = some .a) && r.window.any fun b => b.drop = .b && b.standing = .unreleased) ||
        failed then e.s.raise .misload (.label p.label) else e.s) ∧
      loadUnplanned s p k d r = ({ e with
        s := v
        work := passesAt (p.claimDoor.toList ++ if r'.loadingDrop ≠ r.loadingDrop then [d] else []) k true ++
          [.attempt k] }, .loaded) := by
  have hleft : (((s.endMove p.label).releaseClaim p.label).leaveHeld k p.label).modTrunk k
      (·.loadBooking p.label) = (((s.endMove p.label).releaseClaim p.label).modTrunk k fun r =>
        { r with held := r.held.filter (· ≠ p.label) }).modTrunk k (·.loadedBy p.label b 0) := by
    refine State.modTrunk_congr (r := { r with held := r.held.filter (· ≠ p.label) })
      (State.trunk?_modTrunk_self ?_ _) (Trunk.loadBooking_eq (by exact hb))
    rw [State.trunk?_releaseClaim, State.trunk?_ended, hr]
  refine ⟨_, rfl, ?_⟩
  have htrunk (c : Bool) : (if c then e.s.raise .misload (.label p.label) else e.s).trunk? k = some r' := by
    cases c
    · exact hr'
    · exact (State.trunk?_raise ..).trans hr'
  unfold loadUnplanned
  dsimp only
  rw [hleft]
  rw [show State.modPallet _ p.label _ = s.loadedUnplanned p.label k b from rfl, he]
  dsimp only
  rw [htrunk, Option.any_some]
  by_cases hc : r'.loadingDrop ≠ r.loadingDrop
  · rw [decide_eq_true hc, if_pos hc]; rfl
  · rw [decide_eq_false hc, if_neg hc]; rfl


/-! ## A flush of cause MISLOAD (R78, R137) -/

/-- The state after steps 1 to 4 of a flush of cause MISLOAD. -/
def State.flushedMisload (s : State) (k : Nat) (r : Trunk) (l : Label) (b : Booking) : State :=
  ((((s.endMove l).releaseClaim l).modTrunk k fun _ => r.withdraw l b).modPallet l fun q => { q with
    trunk := none, drop := none, position := none, excluded := excludeTrunk q.excluded k }).raise
      .flush (.trunk k)

theorem flush_misload {e : Ev} {k : Nat} {r : Trunk} {p : Pallet} {b : Booking}
    (hp : e.s.pallet? p.label = some p) (hr : e.s.trunk? k = some r)
    (hb : r.booking? p.label = some b) : e.flush k p.label .misload =
      { e with
        s := e.s.flushedMisload k r p.label b
        work := .flushEnd k p.claimDoor.toList r.loadingDrop .misload (decide (b.standing = .released)) ::
          e.work } := by
  have hfreed : ((e.s.endMove p.label).releaseClaim p.label).trunk? k = some r := by
    rw [State.trunk?_releaseClaim, State.trunk?_ended, hr]
  have hreleased : e.s.isReleased k p.label = decide (b.standing = .released) := by
    rw [State.isReleased, hr, Option.any_some, hb, Option.any_some]
  unfold Ev.flush
  rw [hp]
  dsimp only
  rw [if_pos rfl, if_pos rfl]
  unfold State.treatMisload
  dsimp only
  rw [State.withdrawBooking_eq hfreed hb, State.modPallet_modPallet, hreleased, hr]
  rfl

/-- Step 6 of a flush: the passes and the attempt it hands on (R81). -/
theorem flushEnd_eq {e : Ev} {k : Nat} {r : Trunk} {ds : List Nat} {before : Drop} {cause : Cause}
    {attempt : Bool} (hr : e.s.trunk? k = some r) :
    let changed : Prop := cause ≠ .trailerFull ∧ r.activeDoor?.isSome ∧ r.loadingDrop ≠ before
    let wants : Prop := attempt = true ∨ changed
    e.flushEnd k ds before cause attempt = e.push
      ((ds ++ if changed then r.activeDoor?.toList else []).dedup.map
        (fun d => .pass d (if wants then some k else none)) ++ (if wants then [k] else []).map .attempt) := by
  intro changed wants
  obtain ⟨c, hc⟩ : ∃ c : Bool, c = (decide (cause ≠ .trailerFull) && r.activeDoor?.isSome &&
      decide (r.loadingDrop ≠ before)) := ⟨_, rfl⟩
  have hchanged : c = true ↔ changed := by
    rw [hc]
    simp only [Bool.and_eq_true, decide_eq_true_eq, and_assoc]
    exact Iff.rfl
  have hwants : (attempt || c) = true ↔ wants := by rw [Bool.or_eq_true, hchanged]
  have hend : e.flushEnd k ds before cause attempt = e.push
      (passesAt (ds ++ if c then r.activeDoor?.toList else []) k (attempt || c) ++
        if attempt || c then [.attempt k] else []) := by
    unfold Ev.flushEnd
    dsimp only
    rw [hr, Option.bind_some, Option.any_some, hc]
  rw [hend, passesAt_append]
  simp only [if_congr hchanged rfl rfl, if_congr hwants rfl rfl]

/-! ## LOAD scans as events -/

section
variable {src : Address} {scan : ScanFields} {p : Pallet} {v : State} {x : VerdictResult} {k : Nat}

/-- A scan of a known label whose event is one item of work that only hands on. -/
theorem takeScan_handsOnOf {kind : Byte} {pk : PlaceKind} {e : Ev} {w : Work} {ds : List Nat}
    {served : Option Nat} {ts : List Nat} (hk : placeKindOf kind = some pk) (h : s.ScanPasses pk scan)
    (hp : s.pallet? scan.label = some p)
    (hx : scanKnown (s.enterRepeat pk scan.number.toNat scan.label) pk p (clampScan scan) =
      ({ e with work := [w] }, x))
    (hw : ∀ ws, ({ e with work := ws } : Ev).perform w =
      { e with work := ds.map (fun d => .pass d served) ++ ts.map .attempt ++ ws })
    (hrun : e.running = []) (hag : e.again = []) (hd : e.deferDoor = none) (hc : e.candidate = 0)
    (hpass : e.s.passesAlone served ds)
    (ht : ts = [] ∨ ∃ t, ts = [t] ∧ (e.s.afterPasses ds).attemptEnds t) (hn : ds.length ≤ 1000) :
    takeScan src kind scan s =
      (e.s.afterPasses ds).answerScan src kind (clampScan scan) x e.position e.kingpin e.axle := by
  have hevent : scanEvent (s.enterRepeat pk scan.number.toNat scan.label) pk (clampScan scan) =
      ({ e with work := [w] }, x) :=
    (scanEvent_known (s := s.enterRepeat pk scan.number.toNat scan.label) (scan := clampScan scan) hp).trans hx
  have hdrain := drain_handsOn
    (e := { e with work := ds.map (fun d => .pass d served) ++ ts.map .attempt ++
      (closing ++ [.verdict src kind (clampScan scan) x]) }) 4 rfl hrun hag hd hpass ht
    (drain_scanEnd (e := { e with
      work := closing ++ [.verdict src kind (clampScan scan) x], s := e.s.afterPasses ds }) rfl)
  rw [← hw] at hdrain
  have hrest := (drain_of_cons (e := { e with
    work := w :: (closing ++ [.verdict src kind (clampScan scan) x]) }) _ rfl).trans hdrain
  rw [takeScan_event hk h hevent]
  refine (runEvent_of_drain hrest (eventBound_ge (by omega))).trans ?_
  dsimp only
  rw [hc, State.verdictOf_noCandidate]
  rfl

theorem dedup_toList (o : Option Nat) : o.toList.dedup = o.toList := by
  cases o <;> rfl

/-- The trunks at every door after a claim's release. -/
theorem State.door_releaseClaim (s : State) (l : Label) (d : Nat) :
    ((s.releaseClaim l).door d).active = (s.door d).active ∧
      ((s.releaseClaim l).door d).next = (s.door d).next := by
  unfold State.releaseClaim
  split
  · exact ⟨rfl, rfl⟩
  · rename_i e _
    have hdoor : ((s.modDoor e fun x => { x with claims := x.claims - 1 }).modPallet l fun p =>
        { p with claimDoor := none, flags := { p.flags with mislaned := false } }).door d =
        (s.modDoor e fun x => { x with claims := x.claims - 1 }).door d := rfl
    rw [hdoor]
    rcases s.door_modDoor_cases e d fun x => { x with claims := x.claims - 1 } with h | ⟨rfl, h⟩ <;>
      rw [h] <;> exact ⟨rfl, rfl⟩

theorem State.door_endMove (s : State) (l : Label) (d : Nat) : (s.endMove l).door d = s.door d := by
  obtain ⟨_, _, _, _, _, h⟩ := s.takeMove_eq l false
  rw [State.endMove, h]
  rfl

/-- A planned load, where the pass of its claim door and the attempt hand on nothing more (R134). -/
theorem loadScan_planned {r : Trunk} {b : Booking} (h : s.ScanPasses .load scan)
    (hp : s.pallet? scan.label = some p) (hl : p.label = scan.label)
    (ha : (s.door scan.number.toNat).active = some k) (hs : p.state = .loadBound) (hk : p.trunk = some k)
    (hr : s.trunk? k = some r) (hb : r.booking? scan.label = some b)
    (hv : v = (s.enterRepeat .load scan.number.toNat scan.label).loadedPlanned scan.label k b)
    (hpass : v.passesAlone (some k) p.claimDoor.toList)
    (ht : (v.afterPasses p.claimDoor.toList).attemptEnds k) :
    exec (.loadScan src scan) s = (v.afterPasses p.claimDoor.toList).answerScan src 2 (clampScan scan)
      .loaded p.position 0 0 := by
  have hload := (loadKnown_planned (s := s.enterRepeat .load scan.number.toNat scan.label) ha hs hk).trans
    (loadPlanned_eq hr (by rw [hl]; exact hb))
  rw [hl, ← hv] at hload
  have hds : passesAt p.claimDoor.toList k true = p.claimDoor.toList.map fun d => .pass d (some k) := by
    rw [passesAt, dedup_toList]
    rfl
  rw [hds] at hload
  have hlen : p.claimDoor.toList.length ≤ 1000 := by cases p.claimDoor <;> simp
  exact (exec_loadScan ..).trans (takeScan_handsOn (k := .load) (e := { Ev.ofScan v scan.label with
    position := p.position
    work := p.claimDoor.toList.map (fun d => .pass d (some k)) ++ [.attempt k] })
    (served := some k) (ts := [k]) rfl h hp hload rfl rfl rfl rfl rfl hpass (.inr ⟨k, rfl, ht⟩) hlen)

/-- At the door of a DUE trunk with no HELD pallet, and with no next trunk, the pass after a planned load
grants nothing (R86). -/
theorem doorIdle_loadedPlanned {r : Trunk} {b : Booking} {d : Nat} {l : Label}
    (ha : (s.door d).active = some k) (hn : (s.door d).next = none) (hr : s.trunk? k = some r)
    (hdue : r.phase = .due) (hh : r.held = []) : (s.loadedPlanned l k b).doorIdle d := by
  have htrunk : (s.loadedPlanned l k b).trunk? k = some (r.loadedBy l b 1) :=
    (State.trunk?_releaseClaim ..).trans
      (State.trunk?_modTrunk_self (s := s.endMove l) ((State.trunk?_ended ..).trans hr) _)
  obtain ⟨hactive, hnext⟩ := State.door_releaseClaim (((s.endMove l).modTrunk k (·.loadedBy l b 1)).modPallet l
    fun p => { p with state := .loaded, location := .trailer k }) l d
  have hactive' : ((s.loadedPlanned l k b).door d).active = some k :=
    hactive.trans ((congrArg Door.active (s.door_endMove l d)).trans ha)
  have hnext' : ((s.loadedPlanned l k b).door d).next = none :=
    hnext.trans ((congrArg Door.next (s.door_endMove l d)).trans hn)
  intro j x hj hx
  rw [hactive', hnext'] at hj
  obtain rfl : k = j := Option.some.inj (hj.resolve_right (by nofun))
  rw [htrunk, Option.some.injEq] at hx
  subst hx
  exact ⟨hh, .inr ⟨hdue, by rw [hnext']; nofun⟩⟩

theorem loadedPlanned_attemptEnds {r : Trunk} {b : Booking} {l : Label} (hr : s.trunk? k = some r)
    (hdue : r.phase = .due) : (s.loadedPlanned l k b).reportLanePressure.attemptEnds k := by
  have htrunk : (s.loadedPlanned l k b).reportLanePressure.trunk? k = some (r.loadedBy l b 1) :=
    (State.trunk?_report ..).trans ((State.trunk?_releaseClaim ..).trans
      (State.trunk?_modTrunk_self (s := s.endMove l) ((State.trunk?_ended ..).trans hr) _))
  intro x _ hx _
  rw [htrunk, Option.some.injEq] at hx
  subst hx
  exact .inl hdue

/-- An unplanned load, by the event of its position (R135). -/
theorem loadScan_unplanned {r r' : Trunk} {b : Booking} {e : Ev} {failed : Bool} {ds : List Nat}
    (h : s.ScanPasses .load scan) (hp : s.pallet? scan.label = some p) (hl : p.label = scan.label)
    (ha : (s.door scan.number.toNat).active = some k)
    (hs : p.state = .held ∨ p.state = .laneBound ∨ p.state = .staged) (hk : p.trunk = some k)
    (hr : s.trunk? k = some r) (hb : r.booking? scan.label = some b)
    (he : (Ev.ofScan ((s.enterRepeat .load scan.number.toNat scan.label).loadedUnplanned scan.label k b)
      scan.label).unplannedPosition p k r = (e, failed)) (hr' : e.s.trunk? k = some r')
    (hdrop : r'.loadingDrop = (r.loadedBy scan.label b 0).loadingDrop)
    (hplain : e.running = [] ∧ e.again = [] ∧ e.deferDoor = none ∧ e.candidate = 0)
    (hds : ds = (p.claimDoor.toList ++ if (r.loadedBy scan.label b 0).loadingDrop ≠ r.loadingDrop
      then [scan.number.toNat] else []).dedup)
    (hv : (r.wrongOrder p ∨ failed = true → v = e.s.raise .misload (.label scan.label)) ∧
      (¬ (r.wrongOrder p ∨ failed = true) → v = e.s))
    (hpass : v.passesAlone (some k) ds) (ht : (v.afterPasses ds).attemptEnds k) :
    exec (.loadScan src scan) s = (v.afterPasses ds).answerScan src 2 (clampScan scan)
      .loaded e.position e.kingpin e.axle := by
  obtain ⟨u, hu, hload⟩ := loadUnplanned_of (s := s.enterRepeat .load scan.number.toNat scan.label)
    (d := scan.number.toNat) hr (by rw [hl]; exact hb) (by rw [hl]; exact he) hr'
  obtain rfl : u = v := by
    rw [hu, hl]
    by_cases hc : r.wrongOrder p ∨ failed = true
    · rw [hv.1 hc]
      exact if_pos (by rw [Bool.or_eq_true, Trunk.wrongOrder_iff]; exact hc)
    · rw [hv.2 hc]
      exact if_neg (by rw [Bool.or_eq_true, Trunk.wrongOrder_iff]; exact hc)
  obtain ⟨hrun, hag, hdoor, hcand⟩ := hplain
  have hknown := (loadKnown_unplanned (s := s.enterRepeat .load scan.number.toNat scan.label)
    (d := scan.number.toNat) (r := r) ha hs hk hr).trans hload
  have hlen : ds.length ≤ 1000 := by
    rw [hds]
    exact (length_dedup_le (length_doors_le (a := some scan.number.toNat))).trans (by decide)
  have hwork : passesAt (p.claimDoor.toList ++ if r'.loadingDrop ≠ r.loadingDrop then
      [scan.number.toNat] else []) k true = ds.map fun d => .pass d (some k) := by
    rw [hds, hdrop]
    rfl
  rw [hwork] at hknown
  exact (exec_loadScan ..).trans (takeScan_handsOn (k := .load) (e := { e with
    s := u, work := ds.map (fun d => .pass d (some k)) ++ [.attempt k] })
    (served := some k) (ts := [k]) rfl h hp hknown rfl hrun hag hdoor hcand hpass (.inr ⟨k, rfl, ht⟩) hlen)

/-- A pallet booked elsewhere is flushed and becomes MISLOADED (R137). -/
theorem loadScan_elsewhere {r : Trunk} {b : Booking} {j : Nat} {ds : List Nat} {served : Option Nat}
    (h : s.ScanPasses .load scan) (hp : s.pallet? scan.label = some p) (hl : p.label = scan.label)
    (ha : (s.door scan.number.toNat).active = some k) (hs : p.state ≠ .loaded) (hj : p.trunk = some j)
    (hne : j ≠ k) (hr : s.trunk? j = some r) (hb : r.booking? scan.label = some b)
    (hv : v = ((s.enterRepeat .load scan.number.toNat scan.label).flushedMisload j r scan.label
      b).becomeMisloaded scan.label k)
    (changed : Prop) [Decidable changed]
    (hc : changed ↔ r.activeDoor?.isSome ∧ (r.withdraw scan.label b).loadingDrop ≠ r.loadingDrop)
    (hserved : served = if b.standing = .released ∨ changed then some j else none)
    (hds : ds = (p.claimDoor.toList ++ if changed then r.activeDoor?.toList else []).dedup)
    (hpass : v.passesAlone served ds)
    (ht : b.standing = .released ∨ changed → (v.afterPasses ds).attemptEnds j) :
    exec (.loadScan src scan) s = (v.afterPasses ds).answerScan src 2 (clampScan scan) .misload none 0 0 := by
  obtain ⟨u, hu⟩ : ∃ u, u = s.enterRepeat .load scan.number.toNat scan.label := ⟨_, rfl⟩
  have hur : u.trunk? j = some r := by rw [hu]; exact hr
  have hflush := flush_misload (e := Ev.ofScan u p.label) (k := j) (r := r) (p := p) (b := b)
    (by rw [hl]; show u.pallet? _ = _; rw [hu]; exact hp) hur (by rw [hl]; exact hb)
  have hknown : loadKnown u p scan.number.toNat = ({ Ev.ofScan v scan.label with
      work := [.flushEnd j p.claimDoor.toList r.loadingDrop .misload (decide (b.standing = .released))] },
      .misload) := by
    rw [loadKnown_elsewhere (by rw [hu]; exact ha) hs hj hne, loadBookedMisload, hflush, hl, hv, ← hu]
    rfl
  have htrunk : v.trunk? j = some (r.withdraw scan.label b) := by
    rw [hv]
    refine (State.trunk?_raise ..).trans ((State.trunk?_raise ..).trans (State.trunk?_modTrunk_self (r := r) ?_ _))
    rw [State.trunk?_releaseClaim, State.trunk?_ended, ← hu, hur]
  rw [hu] at hknown
  refine (exec_loadScan ..).trans (takeScan_handsOnOf (pk := .load) (e := Ev.ofScan v scan.label)
    (ds := ds) (served := served) (ts := if b.standing = .released ∨ changed then [j] else [])
    rfl h hp hknown (fun ws => ?_) rfl rfl rfl rfl hpass ?_ ?_)
  · have hend := flushEnd_eq (e := { Ev.ofScan v scan.label with work := ws }) (ds := p.claimDoor.toList)
      (before := r.loadingDrop) (cause := .misload) (attempt := decide (b.standing = .released)) htrunk
    have hchanged : (Cause.misload ≠ .trailerFull ∧ (r.withdraw scan.label b).activeDoor?.isSome ∧
        (r.withdraw scan.label b).loadingDrop ≠ r.loadingDrop) ↔ changed :=
      (and_iff_right (by nofun)).trans hc.symm
    have hwants : (decide (b.standing = .released) = true ∨ (Cause.misload ≠ .trailerFull ∧
        (r.withdraw scan.label b).activeDoor?.isSome ∧
        (r.withdraw scan.label b).loadingDrop ≠ r.loadingDrop)) ↔ b.standing = .released ∨ changed := by
      rw [decide_eq_true_iff, hchanged]
    refine Eq.trans hend ?_
    rw [hds, hserved]
    simp only [if_congr hchanged rfl rfl, if_congr hwants rfl rfl]
    rfl
  · by_cases hw : b.standing = .released ∨ changed
    · rw [if_pos hw]
      exact .inr ⟨j, rfl, ht hw⟩
    · rw [if_neg hw]
      exact .inl rfl
  · rw [hds]
    exact (length_dedup_le length_doors_le).trans (by decide)

end

/-- Settles O24, by the tests of R133. -/
theorem loadScansLoadOrRaiseMisload : Obligations.LoadScansLoadOrRaiseMisload := by
  refine ⟨fun s src scan p t r b => ?_, fun s src scan p h hp hl ha => ?_, fun s src scan p t r => ?_⟩
  · intro d h hp hl hs hk hclaim ha hn hr hdue hheld hb ended counted loaded u
    have hidle : loaded.doorIdle d := doorIdle_loadedPlanned ha hn hr hdue hheld
    have hends : loaded.reportLanePressure.attemptEnds t := loadedPlanned_attemptEnds hr hdue
    have hv : loaded = (s.enterRepeat .load d scan.label).loadedPlanned scan.label t b := rfl
    have hu : u = loaded.closeEvent := rfl
    clear_value u loaded
    have hafter : loaded.afterPasses p.claimDoor.toList = loaded.reportLanePressure := by
      rw [hclaim]
      exact hidle.afterPass
    have hload := loadScan_planned (src := src) h hp hl ha hs hk hr hb hv
      (by rw [hclaim]; exact ⟨hidle.passAlone _, trivial⟩) (by rw [hafter]; exact hends)
    rw [hafter, State.answerScan_position, State.closeEvent_reported, ← hu] at hload
    exact hload
  · intro u
    have hlate : loadKnown (s.enterRepeat .load scan.number.toNat scan.label) p scan.number.toNat = _ :=
      loadKnown_noTrunk (s := s.enterRepeat .load scan.number.toNat scan.label) ha
    rw [hl] at hlate
    obtain ⟨v, hv⟩ : ∃ v, v = (s.enterRepeat .load scan.number.toNat scan.label).raise .misload
      (.label scan.label) := ⟨_, rfl⟩
    have hu : u = v.closeEvent := by rw [hv]
    rw [← hv] at hlate
    clear_value u
    refine ⟨?_, fun hcalm => ?_⟩
    · have hend := (exec_loadScan ..).trans
        (takeScan_calm (src := src) (kind := 2) (k := .load) (v := v) (pos := none) rfl h hp hlate)
      rw [State.answerScan_plain, ← hu] at hend
      exact hend
    · have hentered : (s.enterRepeat .load scan.number.toNat scan.label).NothingToGrant := hcalm.same rfl rfl
      rw [hu, hv, State.pallets_closeEvent (hentered.raise ..), State.raise_pallets]
      rfl
  · intro d l entered ended answer misloaded h hp hl ha hr hplace
    have calm {v : State} {x : VerdictResult} {pos : Option Nat}
        (hx : loadKnown entered p d = ({ Ev.ofScan v p.label with position := pos }, x)) :
        answer v x pos 0 0 :=
      (exec_loadScan ..).trans (takeScan_calm (k := .load) rfl h hp hx)
    refine ⟨fun hs hk => ?_, fun hs hk => ?_, fun hs hk => ?_, fun b hk hb => ?_, fun u ru b hu hut hs hru hb => ?_⟩
    · exact calm ((loadKnown_loaded (s := entered) ha hs).trans (if_pos hk))
    · rw [← show p.label = l from hl]
      exact calm ((loadKnown_loaded (s := entered) ha hs).trans (if_neg hk))
    · have hx := loadKnown_unbooked (s := entered) ha hs hk
      rw [loadUnbookedMisload, show p.label = l from hl, ← show p.label = l from hl] at hx
      have hv := calm (pos := none) hx
      rw [show p.label = l from hl] at hv
      exact hv
    · intro load
      refine ⟨fun hs => ?_, fun hs => ?_⟩
      · intro v ds hpass ht
        have hv : v = entered.loadedPlanned l t b := rfl
        clear_value v
        exact loadScan_planned h hp hl ha hs hk hr hb hv hpass ht
      · intro loaded order f left ds
        have hloaded : loaded = entered.loadedUnplanned l t b := rfl
        have htrunk : loaded.trunk? t = some ({ r with held := r.held.filter (· ≠ l) }.loadedBy l b 0) :=
          State.trunk?_modTrunk_self (s := ((ended.releaseClaim l).modTrunk t fun r =>
            { r with held := r.held.filter (· ≠ l) })) (State.trunk?_modTrunk_self
              (by rw [State.trunk?_releaseClaim, State.trunk?_ended]; exact hr) _) _
        have hclass : loaded.classOf r = s.classOf r :=
          congrArg (fun c : Table TrailerClass => (c.get? r.cls).getD {}) (entered.classes_ended l)
        have hds : ds = (p.claimDoor.toList ++ if (r.loadedBy l b 0).loadingDrop ≠ r.loadingDrop
            then [d] else []).dedup := rfl
        clear_value loaded ds
        refine ⟨fun v hf hv => ?_, fun pos hf => ?_⟩
        · intro w hpass ht
          have he := unplannedPosition_noFit (s := loaded) (p := p) (k := t) (l := l) (r := r)
            (by rw [hclass]; exact hf)
          rw [show p.label = l from hl, ← hv, hloaded] at he
          exact loadScan_unplanned (e := Ev.ofScan v l)
            (r' := { r with held := r.held.filter (· ≠ l) }.loadedBy l b 0) h hp hl ha hs hk hr hb he
            (by rw [hv]; exact htrunk) (Trunk.loadingDrop_congr rfl rfl) ⟨rfl, rfl, rfl, rfl⟩ hds
            ⟨fun hc => if_pos (hc.resolve_right nofun), fun hc => if_neg fun ho => hc (.inl ho)⟩ hpass ht
        · intro x v w hpass ht
          have he := unplannedPosition_fit (s := loaded) (p := p) (k := t) (l := l) (r := r) (pos := pos)
            (by rw [hclass]; exact hf)
          rw [show p.label = l from hl, hclass, hloaded] at he
          have hplaced : v.trunk? t = some (({ r with held := r.held.filter (· ≠ l) }.loadedBy l b 0).place f x
              p.quarters p.bookingKg) := State.trunk?_modTrunk_self htrunk _
          have hdrop := Trunk.loadingDrop_congr (Trunk.place_reads
            ({ r with held := r.held.filter (· ≠ l) }.loadedBy l b 0) f x p.quarters p.bookingKg).1
            (Trunk.place_reads _ f x p.quarters p.bookingKg).2
          have hmeets : (!x.passes (s.classOf r)) = true ↔ x.passes (s.classOf r) = false :=
            iff_of_eq (Bool.not_eq_true' _)
          rw [← hloaded] at he
          have hv : v = (loaded.modTrunk t fun y => y.place f x p.quarters p.bookingKg).modPallet l
            fun q => { q with position := some pos } := rfl
          have hw : w = if order ∨ x.passes (s.classOf r) = false then v.raise .misload (.label l) else v := rfl
          have hx : x = r.project (s.classOf r) p.bookingKg pos := rfl
          clear_value x v w
          rw [← hx, hloaded] at he
          rw [hloaded] at hv
          obtain ⟨e, hev⟩ : ∃ e, e = { Ev.ofScan v l with
            position := some pos, kingpin := x.kingpin, axle := x.axle } := ⟨_, rfl⟩
          have hes : e.s = v := by rw [hev]; rfl
          have hend := loadScan_unplanned (src := src) (e := e) (v := w) h hp hl ha hs hk hr hb (by rw [hev, hv]; exact he)
            (by rw [hes]; exact hplaced) hdrop (by rw [hev]; exact ⟨rfl, rfl, rfl, rfl⟩) hds (by
              rw [hes, hmeets]
              exact ⟨fun hc => hw.trans (if_pos hc), fun hc => hw.trans (if_neg hc)⟩) hpass ht
          rw [hev] at hend
          exact hend
    · intro released gone v changed served ds hpass ht
      have hv : v = (entered.flushedMisload u ru l b).becomeMisloaded l t := rfl
      clear_value v
      exact loadScan_elsewhere h hp hl ha hs hu hut hru hb hv changed Iff.rfl
        (if_congr Iff.rfl rfl rfl)
        (congrArg (fun xs => (p.claimDoor.toList ++ xs).dedup) (if_congr Iff.rfl rfl rfl)) hpass ht

end Sys2Proof.Machine

/-! Walks that find a candidate (R124 to R130). -/

namespace Sys2Proof.Machine

variable {s : State} {e : Ev} {w : Walk} {r : Trunk}

/-! ## The next booking of a walk -/

/-- When the bookings taken are a front part of the window, the next one is the first of the rest. -/
theorem Trunk.nextBooking_after {pre post : List Booking} (hw : r.window = pre ++ post)
    (hn : (r.window.map Booking.seq).Nodup) : r.nextBooking (pre.map Booking.seq) = post.head? := by
  have hnew : ∀ b ∈ post.reverse, (!(pre.map Booking.seq).contains b.seq) = true := by
    intro b hb
    rw [hw, List.map_append, List.nodup_append] at hn
    have hout : b.seq ∉ pre.map Booking.seq := fun hin =>
      hn.2.2 _ hin _ (List.mem_map_of_mem (List.mem_reverse.1 hb)) rfl
    simpa using hout
  have hold : pre.reverse.takeWhile (fun b => !(pre.map Booking.seq).contains b.seq) = [] := by
    cases hp : pre.reverse with
    | nil => rfl
    | cons b bs =>
      have hin : b ∈ pre := List.mem_reverse.1 (hp ▸ List.mem_cons_self)
      exact List.takeWhile_cons_of_neg (by simpa using ⟨b, hin, rfl⟩)
  rw [Trunk.nextBooking, hw, List.reverse_append, List.takeWhile_append_of_pos hnew, hold,
    List.append_nil, List.getLast?_reverse]

/-! ## One step of a walk (R125) -/

theorem Ev.walk_ends (hr : e.s.trunk? w.trunk = some r)
    (h : (e.s.door w.door).depth ≤ r.inFlight ∨ r.nextBooking w.visited = none) :
    e.walk w = e.endWalk w := by
  rw [Ev.walk, hr]
  dsimp only
  by_cases hd : (e.s.door w.door).depth ≤ r.inFlight
  · rw [if_pos hd]
  · rw [if_neg hd, h.resolve_left hd]

section
variable {b : Booking} (hr : e.s.trunk? w.trunk = some r)
  (hd : r.inFlight < (e.s.door w.door).depth) (hb : r.nextBooking w.visited = some b)
include hr hd hb

theorem Ev.walk_skips (hc : e.s.isCandidate r w.door b = false) :
    e.walk w = e.push [.walk { w with visited := w.visited ++ [b.seq] }] := by
  rw [Ev.walk, hr]
  dsimp only
  rw [if_neg (Nat.not_le.2 hd), hb]
  exact if_neg (by rw [hc]; nofun)

theorem Ev.walk_candidate (hc : e.s.isCandidate r w.door b = true) :
    e.walk w =
      let f := r.fit (e.s.classOf r).rows b.quarters b.kg
      let w := { w with visited := w.visited ++ [b.seq] }
      match f.target? with
      | none => e.push [.flush w.trunk b.label .trailerFull, .walk w]
      | some p =>
          let x := r.project (e.s.classOf r) b.kg p
          let w' := { w with released := true, holdChanged := w.holdChanged || (e.s.door w.door).hold }
          if w.forced then (e.release w b f p x).endWalk w'
          else if x.passes (e.s.classOf r) then (e.release w b f p x).push [.walk w']
          else e.push [.walk { w with met := true }] := by
  rw [Ev.walk, hr]
  dsimp only
  rw [if_neg (Nat.not_le.2 hd), hb]
  exact if_pos hc

end

/-- A walk over bookings none of which is a candidate. -/
theorem drain_walk_skips {pre mid post : List Booking} {ws : List Work} {n : Nat} {u : State}
    (hw : e.work = .walk w :: ws) (hr : e.s.trunk? w.trunk = some r)
    (hd : r.inFlight < (e.s.door w.door).depth) (hwin : r.window = pre ++ (mid ++ post))
    (hn : (r.window.map Booking.seq).Nodup) (hv : w.visited = pre.map Booking.seq)
    (hc : ∀ b ∈ mid, e.s.isCandidate r w.door b = false)
    (hu : drain n { e with
      work := .walk { w with visited := (pre ++ mid).map Booking.seq } :: ws } = some u) :
    drain (n + mid.length) e = some u := by
  induction mid generalizing e w pre n with
  | nil =>
    have hw' : w = { w with visited := (pre ++ []).map Booking.seq } := by
      rw [List.append_nil, ← hv]
    rw [← hw', ← hw] at hu
    exact hu
  | cons b mid ih =>
    have hnext : r.nextBooking w.visited = some b := by
      rw [hv, Trunk.nextBooking_after hwin hn]
      rfl
    rw [List.length_cons, ← Nat.add_assoc, drain_of_cons (n + mid.length) hw, Ev.perform,
      Ev.walk_skips (e := { e with work := ws }) hr hd hnext (hc b List.mem_cons_self)]
    refine ih (pre := pre ++ [b]) rfl hr hd ?_ ?_ (fun x hx => hc x (List.mem_cons_of_mem _ hx)) ?_
    · rw [hwin, List.append_assoc]
      rfl
    · rw [hv, List.map_append]
      rfl
    · rw [List.append_assoc]
      exact hu

/-! ## Attempts -/

/-- An attempt that runs begins its walk (R124). -/
theorem Ev.attempt_starts {t d : Nat} (hrun : e.running = []) (hd : e.deferDoor = none)
    (hr : e.s.trunk? t = some r) (hp : r.placement = .active d) (hphase : r.phase ≠ .due)
    (hflight : r.inFlight < (e.s.door d).depth) : e.attempt t =
      ({ e with running := [t] } : Ev).push
        [.walk { trunk := t, door := d, forced := false, start := r.loadingDrop }] := by
  have hactive : r.activeDoor? = some d := by rw [Trunk.activeDoor?, hp]
  have hstart : (decide (r.phase ≠ .due) && decide (r.inFlight < (e.s.door d).depth)) = true := by
    rw [decide_eq_true hphase, decide_eq_true hflight]
    rfl
  rw [Ev.attempt, hrun, if_neg (by simp), hr]
  dsimp only
  rw [hactive]
  dsimp only
  rw [if_neg (by rw [hd]; nofun), if_pos hstart]
  rfl

/-- The end of an attempt that was not asked for again (R124). -/
theorem Ev.attemptDone_once {t : Nat} (hag : e.again = []) :
    e.attemptDone t = { e with running := e.running.filter (· ≠ t), again := [] } := by
  rw [Ev.attemptDone, hag]
  rfl

/-! ## The end of a walk (R130) -/

theorem Ev.endWalk_met {d : Nat} (hr : e.s.trunk? w.trunk = some r) (hmet : w.met = true)
    (hrel : w.released = false) (hz : r.inFlight = 0) (hd : w.door = d) (hold : (e.s.door d).hold = false)
    (hdrop : r.loadingDrop = w.start) : e.endWalk w =
      ({ e with s := e.s.modDoor d fun y => { y with hold := true } } : Ev).push
        [.balanceHold, .attemptDone w.trunk] := by
  have hz' : (Option.any (fun r : Trunk => decide (r.inFlight = 0)) (some r)) = true := decide_eq_true hz
  have hdrop' : (Option.any (fun r : Trunk => decide (r.loadingDrop ≠ w.start)) (some r)) = false :=
    decide_eq_false (not_not.2 hdrop)
  rw [Ev.endWalk, hr, hz', hdrop', hmet, hrel, hd, hold, Bool.not_false, Bool.and_self, Bool.and_self,
    Bool.and_self, Bool.or_true]
  rfl

/-- A walk that has met no failed balance test leaves the door as it is. -/
theorem Ev.endWalk_unmet (hr : e.s.trunk? w.trunk = some r) (hmet : w.met = false) : e.endWalk w =
    e.push ((if w.holdChanged then [.balanceHold] else []) ++
      (if r.loadingDrop ≠ w.start then [.pass w.door none] else []) ++ [.attemptDone w.trunk]) := by
  have hdrop : (Option.any (fun r : Trunk => decide (r.loadingDrop ≠ w.start)) (some r)) =
      decide (r.loadingDrop ≠ w.start) := rfl
  rw [Ev.endWalk, hr, hdrop, hmet, Bool.false_and, Bool.false_and, Bool.false_and, Bool.or_false]
  by_cases hc : r.loadingDrop ≠ w.start
  · rw [decide_eq_true hc, if_pos hc]; rfl
  · rw [decide_eq_false hc, if_neg hc]; rfl

/-- The last step of an attempt's walk that hands on nothing, and the attempt's end. -/
theorem drain_walk_done {ws : List Work} {n : Nat} {u : State} (hw : e.work = .walk w :: ws)
    (hr : e.s.trunk? w.trunk = some r)
    (h : (e.s.door w.door).depth ≤ r.inFlight ∨ r.nextBooking w.visited = none) (hmet : w.met = false)
    (hhold : w.holdChanged = false) (hdrop : r.loadingDrop = w.start) (hrun : e.running = [w.trunk])
    (hag : e.again = []) (hu : drain n { e with work := ws, running := [], again := [] } = some u) :
    drain (n + 2) e = some u := by
  have hfilter : e.running.filter (· ≠ w.trunk) = [] := by
    rw [hrun]
    simp
  rw [drain_of_cons (n + 1) hw, Ev.perform, Ev.walk_ends (e := { e with work := ws }) hr h,
    Ev.endWalk_unmet (e := { e with work := ws }) hr hmet, hhold, if_neg (by nofun),
    if_neg (not_not.2 hdrop), drain_of_cons n rfl, Ev.perform]
  have hdone := Ev.attemptDone_once (e := { e with work := ws }) (t := w.trunk) hag
  dsimp only at hdone
  rw [hfilter] at hdone
  show drain n (({ e with work := ws } : Ev).attemptDone w.trunk) = some u
  rw [hdone]
  exact hu

/-- The last step of an attempt's walk that met a failed balance test and released nothing, with nothing
in flight and a clear hold: the hold is set and reported, and the attempt ends (R130). -/
theorem drain_walk_doneMet {ws : List Work} {n d : Nat} {u : State} (hw : e.work = .walk w :: ws)
    (hr : e.s.trunk? w.trunk = some r) (h : r.nextBooking w.visited = none) (hmet : w.met = true)
    (hrel : w.released = false) (hz : r.inFlight = 0) (hd : w.door = d) (hold : (e.s.door d).hold = false)
    (hdrop : r.loadingDrop = w.start) (hrun : e.running = [w.trunk]) (hag : e.again = [])
    (hu : drain n { e with
      work := ws
      s := (e.s.modDoor d fun y => { y with hold := true }).reportBalanceHold
      running := [], again := [] } = some u) : drain (n + 3) e = some u := by
  have hfilter : e.running.filter (· ≠ w.trunk) = [] := by
    rw [hrun]
    simp
  rw [drain_of_cons (n + 2) hw, Ev.perform, Ev.walk_ends (e := { e with work := ws }) hr (.inr h),
    Ev.endWalk_met (e := { e with work := ws }) hr hmet hrel hz hd hold hdrop, drain_of_cons (n + 1) rfl,
    Ev.perform, drain_of_cons n rfl, Ev.perform]
  have hdone := Ev.attemptDone_once (t := w.trunk) (e := { e with
    work := ws, s := (e.s.modDoor d fun y => { y with hold := true }).reportBalanceHold }) hag
  dsimp only at hdone
  rw [hfilter] at hdone
  exact (congrArg (drain n) hdone).trans hu

/-! ## A release in a walk (R128, R132) -/

/-- A release that is not forced, with the verdict fields of a scanned pallet (R19). -/
theorem Ev.release_unforced (h : w.forced = false) (b : Booking) (f : Fit) (p : Nat) (x : Projection) :
    e.release w b f p x = { e with
      s := e.s.releaseBooking w.trunk w.door b f p x
      position := if e.scanned = some b.label then some p else e.position
      kingpin := if e.scanned = some b.label then x.kingpin else e.kingpin
      axle := if e.scanned = some b.label then x.axle else e.axle } := by
  rw [Ev.release, h]
  by_cases hs : e.scanned = some b.label
  · simp only [if_pos hs]
    rfl
  · simp only [if_neg hs]
    rfl

/-! ## Attempts over a first candidate -/

theorem State.trunk?_releaseBooking {k : Nat} (h : s.trunk? k = some r) (d : Nat) (b : Booking) (f : Fit)
    (p : Nat) (x : Projection) :
    (s.releaseBooking k d b f p x).trunk? k = some (r.release b f x) := by
  rw [State.releaseBooking_eq]
  exact (State.trunk?_releaseRecords (s := s) (k := k) d b f p x k).trans ((if_pos rfl).trans (congrArg _ h))

theorem State.depth_releaseBooking (s : State) (k d : Nat) (b : Booking) (f : Fit)
    (p : Nat) (x : Projection) : ((s.releaseBooking k d b f p x).door d).depth = (s.door d).depth := by
  have hdoor : (s.releaseBooking k d b f p x).door d =
      (s.modDoor d fun y => { y with hold := false }).door d := rfl
  rw [hdoor]
  rcases s.door_modDoor_cases d d (fun y => { y with hold := false }) with h | ⟨-, h⟩ <;> rw [h]

theorem Trunk.loadingDrop_release (r : Trunk) (b : Booking) (f : Fit) (x : Projection) :
    (r.release b f x).loadingDrop = (r.setStanding b.label .released).loadingDrop :=
  Trunk.loadingDrop_congr (Trunk.place_reads (r.setStanding b.label .released) f x b.quarters b.kg).1
    (Trunk.place_reads (r.setStanding b.label .released) f x b.quarters b.kg).2

section
variable {t d : Nat} {ws : List Work} {pre rest : List Booking} {b : Booking} {u : State}

/-- An attempt walks to the first candidate of the window (R125). -/
theorem drain_attempt_toCandidate {n : Nat} (hw : e.work = .attempt t :: ws) (hrun : e.running = [])
    (hd : e.deferDoor = none) (hr : e.s.trunk? t = some r) (hp : r.placement = .active d)
    (hphase : r.phase ≠ .due) (hflight : r.inFlight < (e.s.door d).depth)
    (hfirst : e.s.firstCandidate r d pre b rest)
    (hu : drain n (({ e with work := ws, running := [t] } : Ev).walk
      { trunk := t, door := d, forced := false, start := r.loadingDrop
        visited := pre.map Booking.seq }) = some u) :
    drain (n + 1 + pre.length + 1) e = some u := by
  rw [drain_of_cons _ hw, Ev.perform, Ev.attempt_starts (e := { e with work := ws }) hrun hd hr hp hphase hflight]
  have hwalk := (drain_of_cons (e := { e with
    running := [t]
    work := .walk { trunk := t, door := d, forced := false, start := r.loadingDrop
                    visited := pre.map Booking.seq } :: ws }) n rfl).trans hu
  exact drain_walk_skips (e := { e with
      running := [t]
      work := .walk { trunk := t, door := d, forced := false, start := r.loadingDrop } :: ws })
    (pre := []) (mid := pre) (post := b :: rest) rfl hr hflight hfirst.window hfirst.seqs rfl
    hfirst.before hwalk

/-- An attempt that releases the first candidate, which brings the in-flight count to the depth and
leaves the loading drop and a hold that is clear (R125 to R130). -/
theorem drain_attempt_releases {n pos : Nat} (hw : e.work = .attempt t :: ws) (hrun : e.running = [])
    (hag : e.again = []) (hd : e.deferDoor = none) (hr : e.s.trunk? t = some r)
    (hp : r.placement = .active d) (hphase : r.phase ≠ .due)
    (hflight : r.inFlight + 1 = (e.s.door d).depth) (hold : (e.s.door d).hold = false)
    (hfirst : e.s.firstCandidate r d pre b rest)
    (hfit : (r.fit (e.s.classOf r).rows b.quarters b.kg).target? = some pos)
    (hpass : (r.project (e.s.classOf r) b.kg pos).passes (e.s.classOf r) = true)
    (hdrop : (r.setStanding b.label .released).loadingDrop = r.loadingDrop)
    (hu : drain n { e with
      work := ws
      s := e.s.releaseBooking t d b (r.fit (e.s.classOf r).rows b.quarters b.kg) pos
        (r.project (e.s.classOf r) b.kg pos)
      position := if e.scanned = some b.label then some pos else e.position
      kingpin := if e.scanned = some b.label then (r.project (e.s.classOf r) b.kg pos).kingpin else e.kingpin
      axle := if e.scanned = some b.label then (r.project (e.s.classOf r) b.kg pos).axle else e.axle
      running := [], again := [] } = some u) :
    drain (n + 2 + 1 + pre.length + 1) e = some u := by
  obtain ⟨f, hf⟩ : ∃ f, f = r.fit (e.s.classOf r).rows b.quarters b.kg := ⟨_, rfl⟩
  obtain ⟨x, hx⟩ : ∃ x, x = r.project (e.s.classOf r) b.kg pos := ⟨_, rfl⟩
  rw [← hf] at hfit hu
  rw [← hx] at hpass hu
  have hflight' : r.inFlight < (e.s.door d).depth := by omega
  refine drain_attempt_toCandidate hw hrun hd hr hp hphase hflight' hfirst ?_
  have hnext : r.nextBooking (pre.map Booking.seq) = some b :=
    Trunk.nextBooking_after hfirst.window hfirst.seqs
  have hwalk := Ev.walk_candidate (e := { e with work := ws, running := [t] })
    (w := { trunk := t, door := d, forced := false, start := r.loadingDrop
            visited := pre.map Booking.seq }) hr hflight' hnext hfirst.candidate
  dsimp only at hwalk
  rw [← hf, hfit] at hwalk
  dsimp only at hwalk
  rw [← hx, if_neg (by nofun), if_pos hpass, hold, Ev.release_unforced rfl] at hwalk
  have htrunk := State.trunk?_releaseBooking hr d b f pos x
  have hfull : ((e.s.releaseBooking t d b f pos x).door d).depth ≤ (r.release b f x).inFlight := by
    rw [State.depth_releaseBooking, ← hflight, Trunk.release]
    cases f <;> exact Nat.le_refl _
  have hsame : (r.release b f x).loadingDrop = r.loadingDrop :=
    (Trunk.loadingDrop_release ..).trans hdrop
  obtain ⟨v, hv⟩ : ∃ v, v = e.s.releaseBooking t d b f pos x := ⟨_, rfl⟩
  dsimp only at hwalk
  rw [← hv] at hwalk htrunk hfull hu
  rw [hwalk]
  exact drain_walk_done (n := n + 0) (r := r.release b f x) (ws := ws)
    (w := { trunk := t, door := d, forced := false, start := r.loadingDrop
            visited := pre.map Booking.seq ++ [b.seq], released := true, holdChanged := false || false })
    rfl htrunk (.inl hfull) rfl rfl hsame rfl hag hu

/-- An attempt whose only candidate fits and fails the balance test, with nothing in flight and a clear
hold, sets the hold and reports it (R125, R129, R130). -/
theorem drain_attempt_holds {n pos : Nat} (hw : e.work = .attempt t :: ws) (hrun : e.running = [])
    (hag : e.again = []) (hd : e.deferDoor = none) (hr : e.s.trunk? t = some r)
    (hp : r.placement = .active d) (hphase : r.phase ≠ .due)
    (hflight : r.inFlight = 0) (hdepth : 0 < (e.s.door d).depth) (hold : (e.s.door d).hold = false)
    (hfirst : e.s.firstCandidate r d pre b rest) (hrest : ∀ y ∈ rest, e.s.isCandidate r d y = false)
    (hfit : (r.fit (e.s.classOf r).rows b.quarters b.kg).target? = some pos)
    (hpass : (r.project (e.s.classOf r) b.kg pos).passes (e.s.classOf r) = false)
    (hu : drain n { e with
      work := ws
      s := (e.s.modDoor d fun y => { y with hold := true }).reportBalanceHold
      running := [], again := [] } = some u) :
    drain (n + 3 + rest.length + 1 + pre.length + 1) e = some u := by
  have hflight' : r.inFlight < (e.s.door d).depth := by omega
  refine drain_attempt_toCandidate hw hrun hd hr hp hphase hflight' hfirst ?_
  have hnext : r.nextBooking (pre.map Booking.seq) = some b :=
    Trunk.nextBooking_after hfirst.window hfirst.seqs
  have hwalk := Ev.walk_candidate (e := { e with work := ws, running := [t] })
    (w := { trunk := t, door := d, forced := false, start := r.loadingDrop
            visited := pre.map Booking.seq }) hr hflight' hnext hfirst.candidate
  dsimp only at hwalk
  rw [hfit] at hwalk
  dsimp only at hwalk
  rw [if_neg (by nofun), if_neg (by rw [hpass]; nofun)] at hwalk
  rw [hwalk]
  have hend : r.window = (pre ++ [b]) ++ (rest ++ []) := by
    rw [hfirst.window, List.append_nil, List.append_assoc]
    rfl
  have hall : r.window = (pre ++ [b] ++ rest) ++ [] := by
    rw [hend, List.append_assoc (pre ++ [b])]
  have hnone : r.nextBooking ((pre ++ [b] ++ rest).map Booking.seq) = none :=
    Trunk.nextBooking_after hall hfirst.seqs
  have hlast := drain_walk_doneMet (n := n) (ws := ws) (e := { e with
      running := [t]
      work := .walk { trunk := t, door := d, forced := false, start := r.loadingDrop
                      visited := (pre ++ [b] ++ rest).map Booking.seq, met := true } :: ws })
    rfl hr hnone rfl rfl hflight rfl hold rfl rfl hag hu
  exact drain_walk_skips (mid := rest) (post := []) (pre := pre ++ [b]) (ws := ws) (e := { e with
      running := [t]
      work := .walk { trunk := t, door := d, forced := false, start := r.loadingDrop
                      visited := pre.map Booking.seq ++ [b.seq], met := true } :: ws })
    rfl hr hflight' hend hfirst.seqs (by rw [List.map_append]; rfl) hrest hlast

end

end Sys2Proof.Machine

/-! LANE scans (section 5.4). -/

namespace Sys2Proof.Machine

variable {s t u v : State} {p : Pallet} {d : Nat}

/-! ## The rows of the table -/

theorem laneKnown_stray (h : p.state = .exception ∨ p.state = .misloaded ∨ p.state = .atRework) :
    laneKnown s p d = laneStray s p d := by
  unfold laneKnown
  rcases h with h | h | h <;> rw [h]

theorem laneKnown_arrival (h : p.state = .laneBound) (hc : p.claimDoor = some d) :
    laneKnown s p d = laneArrival s p d := by
  unfold laneKnown
  rw [h, hc]
  exact if_pos rfl

theorem laneKnown_mislane {c : Nat} (h : p.state = .laneBound ∨ p.state = .staged)
    (hc : p.claimDoor = some c) (hne : c ≠ d) : laneKnown s p d = laneMislane s p d c := by
  unfold laneKnown
  rcases h with h | h <;> rw [h, hc] <;> exact if_neg hne

theorem laneKnown_rescan (h : p.state = .staged)
    (hc : p.claimDoor = some d ∨ p.claimDoor = none ∧ s.isPlacedAt p.trunk d = true) :
    laneKnown s p d = laneRescan s p d := by
  unfold laneKnown
  rw [h]
  rcases hc with hc | ⟨hc, hplaced⟩ <;> rw [hc]
  · exact if_pos rfl
  · exact if_pos hplaced

theorem laneKnown_misplaced (hplaced : s.isPlacedAt p.trunk d = false)
    (h : p.state = .held ∨ p.state = .staged ∧ p.claimDoor = none) :
    laneKnown s p d = laneMisplaced s p d := by
  unfold laneKnown
  rcases h with h | ⟨h, hc⟩
  · rw [h]
    exact if_neg (by rw [hplaced]; nofun)
  · rw [h, hc]
    exact if_neg (by rw [hplaced]; nofun)

theorem laneKnown_unplanned (hplaced : s.isPlacedAt p.trunk d = true) (h : p.state = .held) :
    laneKnown s p d = laneUnplanned s p d := by
  unfold laneKnown
  rw [h]
  exact if_pos hplaced

theorem laneKnown_released (h : p.state = .loadBound) :
    laneKnown s p d = laneReleased s p d (p.claimDoor.getD d) := by
  unfold laneKnown
  rw [h]

theorem laneKnown_loaded (h : p.state = .loaded) : laneKnown s p d = laneLoaded s p := by
  unfold laneKnown
  rw [h]

/-! ## What the rows read -/

theorem State.isPlacedAt_eq {k : Nat} {r : Trunk} (hr : s.trunk? k = some r) (d : Nat) :
    s.isPlacedAt (some k) d = decide (r.door? = some d) := by
  rw [State.isPlacedAt, Option.bind_some, State.doorOfTrunk, hr, Option.bind_some]

/-- The attempt that a pallet of trunk `k` requests: its trunk's, or none. -/
theorem State.attemptFor_eq {k : Nat} (hk : p.trunk = some k) :
    s.attemptFor p d = (if s.isActiveAt (some k) d then [k] else []).map .attempt := by
  rw [State.attemptFor, hk]
  dsimp only
  split <;> rfl

theorem State.isActiveAt_eq (s : State) (k d : Nat) :
    s.isActiveAt (some k) d = decide ((s.door d).active = some k) := by
  rw [State.isActiveAt, Option.isSome_some, Bool.true_and]
  exact decide_eq_decide.2 eq_comm

/-- The single test of R93 for a booked pallet. -/
theorem State.claimTest_eq {k : Nat} {r : Trunk} (hk : p.trunk = some k) (hr : s.trunk? k = some r) :
    s.claimTest p d = if (s.door d).active = some k ∧ p.drop = some r.loadingDrop then s.roomForLoading d
      else s.roomAboveReserve d := by
  unfold State.claimTest
  cases ha : (s.door d).active with
  | none =>
    rw [if_neg (by rintro ⟨h, -⟩; cases h)]
    rfl
  | some j =>
    rw [Option.bind_some, hk]
    by_cases hj : j = k
    · rw [hj, hr]
      dsimp only
      refine if_congr ?_ rfl rfl
      simp
    · have hnot : ¬ (some j = some k ∧ p.drop = some r.loadingDrop) := fun h => hj (Option.some.inj h.1)
      rw [if_neg hnot]
      cases s.trunk? j with
      | none => rfl
      | some x =>
        refine if_neg ?_
        simp [Ne.symm hj]

/-- The claim at another door that a scan at door `d` gives up (R93, R94). -/
theorem State.releaseElsewhere_eq (s : State) (p : Pallet) (d : Nat) : s.releaseElsewhere p d =
    (if (p.claimDoor.filter fun c => c ≠ d).isSome then s.releaseClaim p.label else s,
      (p.claimDoor.filter fun c => c ≠ d).toList) := by
  unfold State.releaseElsewhere
  cases p.claimDoor with
  | none => rfl
  | some c =>
    dsimp only
    by_cases hc : c = d
    · have hnone : (some c).filter (fun c => decide (c ≠ d)) = none := by simp [hc]
      rw [if_pos hc, hnone]
      rfl
    · have hsome : (some c).filter (fun c => decide (c ≠ d)) = some c := by simp [hc]
      rw [if_neg hc, hsome]
      rfl

/-- The state after an unbooked pallet was found in a lane (R97). -/
def State.foundStray (s : State) (l : Label) (d : Nat) : State :=
  s.modPallet l fun p => { p with
    state := .exception, reason := p.reason.or (some .stray), location := .lane d
    move := p.move.map fun mv => { mv with source := .lane d } }

theorem laneStray_eq (hp : s.pallet? p.label = some p) : laneStray s p d =
    (Ev.ofScan ((if p.move.isSome then s.foundStray p.label d
      else (s.foundStray p.label d).makeMove p.label .rework (.lane d) .rework 0).raise .mislane
        (.label p.label)) p.label, .noBooking) := by
  have hfound : (s.foundStray p.label d).pallet? p.label = _ := State.pallet?_modPallet_self hp _
  have hqueue : (s.foundStray p.label d).queueRework p.label = if p.move.isSome then s.foundStray p.label d
      else (s.foundStray p.label d).makeMove p.label .rework (.lane d) .rework 0 := by
    rw [State.queueRework, hfound]
    cases p.move <;> rfl
  rw [← hqueue]
  rfl

/-- The state after the scan of a HELD pallet at its trunk's door (R93), its claim at another door
given up. -/
def State.arrivedUnplanned (s : State) (p : Pallet) (d : Nat) (claims : Bool) : State :=
  (if claims then s.takeClaim p.label d else s).modPallet p.label fun q =>
    { q with location := .lane d, state := .staged, flags := { q.flags with unplanned := true } }

theorem laneUnplanned_eq {k : Nat} {r : Trunk} {l : Label} {elsewhere : Option Nat} {left : State}
    {claims : Bool} (hl : p.label = l) (hk : p.trunk = some k) (hr : s.trunk? k = some r)
    (helse : elsewhere = p.claimDoor.filter fun c => c ≠ d)
    (hleft : left = if elsewhere.isSome then
      (s.modTrunk k fun r => { r with held := r.held.filter (· ≠ l) }).releaseClaim l
      else s.modTrunk k fun r => { r with held := r.held.filter (· ≠ l) })
    (hclaims : claims = true ↔ p.claimDoor ≠ some d ∧
      (if (left.door d).active = some k ∧ p.drop = some r.loadingDrop then left.roomForLoading d
      else left.roomAboveReserve d) = true) :
    laneUnplanned s p d = ({ Ev.ofScan (left.arrivedUnplanned p d claims) l with
      work := elsewhere.toList.map (fun c => .pass c none) ++
        if claims || p.claimDoor = some d then (left.arrivedUnplanned p d claims).attemptFor p d else [] },
      .staged) := by
  subst hl
  have htrunk : left.trunk? k = some { r with held := r.held.filter (· ≠ p.label) } := by
    have hkept := State.trunk?_modTrunk_self hr fun r => { r with held := r.held.filter (· ≠ p.label) }
    rw [hleft]
    split
    · exact (State.trunk?_releaseClaim ..).trans hkept
    · exact hkept
  have htest : (!decide (p.claimDoor = some d) && left.claimTest p d) = claims := by
    rw [State.claimTest_eq hk htrunk, ← decide_not, Bool.eq_iff_iff, hclaims, Bool.and_eq_true,
      decide_eq_true_iff]
    rfl
  have hfreed : (if (p.claimDoor.filter fun c => decide (c ≠ d)).isSome = true then
      (s.leaveHeld k p.label).releaseClaim p.label else s.leaveHeld k p.label) = left := by
    rw [hleft, helse]
    rfl
  unfold laneUnplanned
  rw [hk]
  dsimp only
  rw [State.releaseElsewhere_eq]
  dsimp only
  rw [hfreed, htest, ← helse]
  rfl

theorem laneRescan_unclaimed {k : Nat} {l : Label} (hc : p.claimDoor = none) (hl : p.label = l)
    (hk : p.trunk = some k) : laneRescan s p d =
      ({ Ev.ofScan (if s.claimTest p d then s.takeClaim l d else s) l with
        work := (if s.claimTest p d && (s.takeClaim l d).isActiveAt (some k) d then [k] else []).map
          .attempt }, .staged) := by
  unfold laneRescan
  rw [hc, Option.isNone_none, Bool.true_and, hl]
  dsimp only
  rw [State.attemptFor_eq hk]
  cases s.claimTest p d <;> rfl

theorem laneMisplaced_held (h : p.state = .held) :
    let elsewhere := p.claimDoor.filter fun c => c ≠ d
    laneMisplaced s p d = ({ Ev.ofScan ((if elsewhere.isSome then s.releaseClaim p.label else s).modPallet
        p.label fun q => { q with location := .lane d, state := .held }) p.label with
      work := elsewhere.toList.map fun c => .pass c none }, .held) := by
  intro elsewhere
  unfold laneMisplaced
  rw [State.releaseElsewhere_eq, h]
  dsimp only
  rw [List.append_nil, dedup_toList]

theorem laneMisplaced_staged {k : Nat} {r : Trunk} (h : p.state = .staged) (hc : p.claimDoor = none)
    (hk : p.trunk = some k) (hr : s.trunk? k = some r) : laneMisplaced s p d =
      ({ Ev.ofScan ((s.modPallet p.label fun q => { q with location := .lane d, state := .held }).modTrunk k
          fun r => { r with held := r.held.filter (· ≠ p.label) ++ [p.label] }) p.label with
        work := r.door?.toList.map fun c => .pass c none }, .held) := by
  have hdoor : (s.modPallet p.label fun q => { q with location := .lane d, state := .held }).doorOfTrunk k =
      r.door? := congrArg (Option.bind · Trunk.door?) hr
  unfold laneMisplaced
  rw [State.releaseElsewhere_eq, h, hc, hk]
  dsimp only
  rw [← dedup_toList r.door?, ← hdoor]
  rfl

/-! ## LANE scans as events -/

section
variable {src : Address} {scan : ScanFields} {x : VerdictResult}

theorem laneScan_handsOn {ds ts : List Nat} {l : Label} (h : s.ScanPasses .lane scan)
    (hp : s.pallet? scan.label = some p)
    (hx : laneKnown (s.enterRepeat .lane scan.number.toNat scan.label) p scan.number.toNat =
      ({ Ev.ofScan v l with work := ds.map (fun c => .pass c none) ++ ts.map .attempt }, x))
    (hpass : v.passesAlone none ds) (ht : ts = [] ∨ ∃ t, ts = [t] ∧ (v.afterPasses ds).attemptEnds t)
    (hn : ds.length ≤ 1000) : exec (.laneScan src scan) s =
      .next ((v.afterPasses ds).closeEvent.sendVerdict src
        ((v.afterPasses ds).closeEvent.verdictOf 1 (clampScan scan) x)) := by
  rw [exec_laneScan, ← State.answerScan_plain]
  exact takeScan_handsOn (k := .lane) (e := { Ev.ofScan v l with
    work := ds.map (fun c => .pass c none) ++ ts.map .attempt }) rfl h hp hx rfl rfl rfl rfl rfl hpass ht hn

theorem laneScan_calm {l : Label} (h : s.ScanPasses .lane scan) (hp : s.pallet? scan.label = some p)
    (hx : laneKnown (s.enterRepeat .lane scan.number.toNat scan.label) p scan.number.toNat =
      (Ev.ofScan v l, x)) : exec (.laneScan src scan) s =
      .next (v.closeEvent.sendVerdict src (v.closeEvent.verdictOf 1 (clampScan scan) x)) :=
  laneScan_handsOn (ds := []) (ts := []) h hp hx trivial (.inl rfl) (Nat.zero_le _)

/-- A scan of a known label whose event drains. -/
theorem takeScan_drains {kind : Byte} {k : PlaceKind} {e : Ev} {n : Nat}
    (hk : placeKindOf kind = some k) (h : s.ScanPasses k scan) (hp : s.pallet? scan.label = some p)
    (hx : scanKnown (s.enterRepeat k scan.number.toNat scan.label) k p (clampScan scan) = (e, x))
    (hd : drain n { e with work := e.work ++ closing ++ [.verdict src kind (clampScan scan) x] } = some u)
    (hn : n ≤ 10000) : takeScan src kind scan s = .next u := by
  have hevent : scanEvent (s.enterRepeat k scan.number.toNat scan.label) k (clampScan scan) = (e, x) :=
    (scanEvent_known (s := s.enterRepeat k scan.number.toNat scan.label) (scan := clampScan scan) hp).trans hx
  rw [takeScan_event hk h hevent]
  exact runEvent_of_drain hd (eventBound_ge hn)

end

/-! ## Planned arrivals (R91) -/

/-- The state after a planned arrival. -/
def State.arrivedPlanned (s : State) (l : Label) (d : Nat) : State :=
  (s.endMove l).modPallet l fun q =>
    { q with location := .lane d, state := .staged, flags := { q.flags with mislaned := false } }

theorem State.door_arrivedPlanned (s : State) (l : Label) (d c : Nat) :
    (s.arrivedPlanned l d).door c = s.door c := State.door_endMove ..

theorem State.trunk?_arrivedPlanned (s : State) (l : Label) (d k : Nat) :
    (s.arrivedPlanned l d).trunk? k = s.trunk? k := State.trunk?_ended ..

theorem State.classes_arrivedPlanned (s : State) (l : Label) (d : Nat) :
    (s.arrivedPlanned l d).classes = s.classes := (State.RoutesAs.takeMove s l false).classes

/-- A planned arrival makes the attempt of a trunk that is active at the door (R123). -/
theorem laneArrival_eq {k : Nat} (hk : p.trunk = some k) : laneArrival s p d =
    ({ Ev.ofScan (s.arrivedPlanned p.label d) p.label with
      work := (if decide ((s.door d).active = some k) then [k] else []).map .attempt }, .staged) := by
  have hwork : (s.arrivedPlanned p.label d).attemptFor p d =
      (if decide ((s.door d).active = some k) then [k] else []).map .attempt := by
    rw [State.attemptFor_eq hk, State.isActiveAt_eq, State.door_arrivedPlanned]
  rw [← hwork]
  rfl

theorem laneArrival_other (h : p.trunk ≠ (s.door d).active) : laneArrival s p d =
    (Ev.ofScan (s.arrivedPlanned p.label d) p.label, .staged) := by
  cases hk : p.trunk with
  | none =>
    have hwork : (s.arrivedPlanned p.label d).attemptFor p d = [] := by
      rw [State.attemptFor, hk]
    rw [show laneArrival s p d = ({ Ev.ofScan (s.arrivedPlanned p.label d) p.label with
      work := (s.arrivedPlanned p.label d).attemptFor p d }, .staged) from rfl, hwork]
    rfl
  | some k =>
    rw [laneArrival_eq hk, decide_eq_false (fun hx => h (hk.trans hx.symm))]
    rfl

/-- The verdict of a scan whose attempt released booking `b` (R19; log 20). -/
theorem verdictOf_released (v : State) (kind : Byte) (scan : ScanFields) (r : VerdictResult) (own l : Label)
    (pos : Nat) (x : Projection) :
    { v.verdictOf kind scan r with
      candidate := 0
      position := if some own = some l then some pos else none
      kingpin := if some own = some l then x.kingpin else 0
      axle := if some own = some l then x.axle else 0 } =
      if l = own then { v.verdictOf kind scan r with
        position := some pos, kingpin := x.kingpin, axle := x.axle }
      else v.verdictOf kind scan r := by
  by_cases h : l = own
  · simp only [h, if_true]
    exact State.verdictOf_noCandidate ..
  · have hne : ¬ (some own = some l) := fun hx => h (Option.some.inj hx).symm
    simp only [if_neg hne, if_neg h]
    exact State.verdictOf_plain ..

theorem State.classOf_arrivedPlanned (s : State) (l : Label) (d : Nat) (r : Trunk) :
    (s.arrivedPlanned l d).classOf r = s.classOf r :=
  congrArg (fun c : Table TrailerClass => (c.get? r.cls).getD {}) (State.classes_arrivedPlanned ..)

theorem laneKnown_planned {k : Nat} (hs : p.state = .laneBound) (hc : p.claimDoor = some d)
    (hk : p.trunk = some k) (ha : (s.door d).active = some k) : laneKnown s p d =
      ({ Ev.ofScan (s.arrivedPlanned p.label d) p.label with work := [.attempt k] }, .staged) := by
  rw [laneKnown_arrival hs hc, laneArrival_eq hk, decide_eq_true ha]
  rfl

/-- A planned arrival at the trunk's own active door whose event, an attempt and the closing, drains. -/
theorem laneScan_attempt {src : Address} {scan : ScanFields} {k n : Nat} (h : s.ScanPasses .lane scan)
    (hp : s.pallet? scan.label = some p) (hl : p.label = scan.label) (hs : p.state = .laneBound)
    (hc : p.claimDoor = some scan.number.toNat) (hk : p.trunk = some k)
    (ha : (s.door scan.number.toNat).active = some k)
    (hv : v = (s.enterRepeat .lane scan.number.toNat scan.label).arrivedPlanned scan.label scan.number.toNat)
    (hd : drain n { Ev.ofScan v scan.label with
      work := .attempt k :: (closing ++ [.verdict src 1 (clampScan scan) .staged]) } = some u)
    (hn : n ≤ 10000) : exec (.laneScan src scan) s = .next u := by
  have hknown := laneKnown_planned (s := s.enterRepeat .lane scan.number.toNat scan.label) hs hc hk ha
  rw [hl, ← hv] at hknown
  exact (exec_laneScan ..).trans (takeScan_drains (k := .lane) rfl h hp hknown hd hn)

section
variable {src : Address} {scan : ScanFields} {k pos : Nat} {r : Trunk} {pre rest : List Booking} {b : Booking}

theorem State.firstCandidate.before_le (h : s.firstCandidate r d pre b rest) :
    pre.length + rest.length ≤ 128 := by
  have hcount := h.count
  rw [h.window, List.length_append, List.length_cons] at hcount
  omega

/-- The attempt of a planned arrival releases the first candidate (R91, R123 to R130). -/
theorem drain_arrival_releases {l : Label} (hr : v.trunk? k = some r) (hplace : r.placement = .active d)
    (hfirst : v.firstCandidate r d pre b rest) (hphase : r.phase ≠ .due) (hold : (v.door d).hold = false)
    {f : Fit} {x : Projection} (hf : f = r.fit (v.classOf r).rows b.quarters b.kg)
    (hx : x = r.project (v.classOf r) b.kg pos) (hfit : f.target? = some pos)
    (hpass : x.passes (v.classOf r) = true) (hflight : r.inFlight + 1 = (v.door d).depth)
    (hdrop : (r.setStanding b.label .released).loadingDrop = r.loadingDrop)
    (hw : u = (v.releaseBooking k d b f pos x).closeEvent) :
    drain (4 + 2 + 1 + pre.length + 1) { Ev.ofScan v l with
      work := .attempt k :: (closing ++ [.verdict src 1 scan .staged]) } =
    some (u.sendVerdict src (if b.label = l then { u.verdictOf 1 scan .staged with
        position := some pos, kingpin := x.kingpin, axle := x.axle }
      else u.verdictOf 1 scan .staged)) := by
  have hend := drain_scanEnd (src := src) (kind := 1) (scan := scan) (r := .staged)
    (e := { Ev.ofScan (v.releaseBooking k d b f pos x) l with
      work := closing ++ [.verdict src 1 scan .staged]
      position := if some l = some b.label then some pos else none
      kingpin := if some l = some b.label then x.kingpin else 0
      axle := if some l = some b.label then x.axle else 0 }) rfl
  have hverdict := congrArg (fun y => some (u.sendVerdict src y))
    (verdictOf_released u 1 scan .staged l b.label pos x)
  rw [hw] at hverdict ⊢
  have hend' := hend.trans hverdict
  subst hf hx
  exact drain_attempt_releases (n := 4) (e := { Ev.ofScan v l with
      work := .attempt k :: (closing ++ [.verdict src 1 scan .staged]) })
    rfl rfl rfl rfl hr hplace hphase hflight hold hfirst hfit hpass hdrop hend'

/-- The attempt of a planned arrival finds no candidate that passes the balance test (R129, R130). -/
theorem drain_arrival_holds {l : Label} (hr : v.trunk? k = some r) (hplace : r.placement = .active d)
    (hfirst : v.firstCandidate r d pre b rest) (hphase : r.phase ≠ .due) (hold : (v.door d).hold = false)
    (hfit : (r.fit (v.classOf r).rows b.quarters b.kg).target? = some pos)
    (hpass : (r.project (v.classOf r) b.kg pos).passes (v.classOf r) = false) (hflight : r.inFlight = 0)
    (hdepth : 0 < (v.door d).depth) (hrest : ∀ y ∈ rest, v.isCandidate r d y = false)
    (hw : u = ((v.modDoor d fun y => { y with hold := true }).reportBalanceHold).closeEvent) :
    drain (4 + 3 + rest.length + 1 + pre.length + 1) { Ev.ofScan v l with
      work := .attempt k :: (closing ++ [.verdict src 1 scan .staged]) } =
    some (u.sendVerdict src (u.verdictOf 1 scan .staged)) := by
  have hend := drain_scanEnd (src := src) (kind := 1) (scan := scan) (r := .staged)
    (e := { Ev.ofScan (v.modDoor d fun y => { y with hold := true }).reportBalanceHold l with
      work := closing ++ [.verdict src 1 scan .staged] }) rfl
  have hverdict := congrArg (fun y => some (u.sendVerdict src y)) (State.verdictOf_plain u 1 scan .staged)
  rw [hw] at hverdict ⊢
  exact drain_attempt_holds (n := 4) (e := { Ev.ofScan v l with
      work := .attempt k :: (closing ++ [.verdict src 1 scan .staged]) })
    rfl rfl rfl rfl hr hplace hphase hflight hdepth hold hfirst hrest hfit hpass (hend.trans hverdict)

end

/-- Settles O23, by the rows of the table of section 5.4. -/
theorem laneScansStageOrRaiseMislane : Obligations.LaneScansStageOrRaiseMislane := by
  refine ⟨fun s src scan p h hp hl hs hc hk => ?_, fun s src scan p h hp hl hs => ?_,
    fun s src scan p t r => ?_, fun s src scan p t r => ?_⟩
  · intro entered u
    have hu : u = (entered.arrivedPlanned scan.label scan.number.toNat).closeEvent := rfl
    clear_value u
    have hknown := (laneKnown_arrival hs hc).trans (laneArrival_other (s := entered) hk)
    rw [hu, ← hl]
    exact laneScan_calm h hp hknown
  · intro lane entered found queued u
    have hu : u = (queued.raise .mislane (.label scan.label)).closeEvent := rfl
    have hqueued : queued = if p.move.isSome then entered.foundStray scan.label scan.number.toNat
      else (entered.foundStray scan.label scan.number.toNat).makeMove scan.label .rework
        (.lane scan.number.toNat) .rework 0 := rfl
    clear_value u queued
    have hknown := (laneKnown_stray hs).trans
      (laneStray_eq (s := entered) (d := scan.number.toNat) (by rw [hl]; exact hp))
    rw [hl, ← hqueued] at hknown
    rw [hu]
    exact laneScan_calm h hp hknown
  · intro d staged h hp hl hs hc hk ha hr hplace
    have hv : staged = (s.enterRepeat .lane d scan.label).arrivedPlanned scan.label d := rfl
    clear_value staged
    have hdoor (c : Nat) : staged.door c = s.door c := by rw [hv]; exact State.door_arrivedPlanned ..
    have htrunk : staged.trunk? t = some r := by rw [hv]; exact (State.trunk?_arrivedPlanned ..).trans hr
    have hclass : staged.classOf r = s.classOf r := by rw [hv]; exact State.classOf_arrivedPlanned ..
    refine ⟨fun ht => ?_, fun pre b rest pos hfirst hphase hold hfit => ?_⟩
    · intro v
      have hknown := laneKnown_planned (s := s.enterRepeat .lane d scan.label) hs hc hk ha
      rw [hl, ← hv] at hknown
      exact laneScan_handsOn (ds := []) (ts := [t]) h hp hknown trivial (.inr ⟨t, rfl, ht⟩) (Nat.zero_le _)
    · intro x
      have hle := hfirst.before_le
      refine ⟨fun hpass hflight hdrop => ?_, fun hpass hflight hdepth hrest => ?_⟩
      · intro v
        have hdrain := drain_arrival_releases (src := src) (scan := clampScan scan) (u := v) (x := x)
          (f := r.fit (s.classOf r).rows b.quarters b.kg) (l := scan.label) htrunk hplace hfirst
          hphase (by rw [hdoor]; exact hold) (by rw [hclass]) (by rw [hclass]) hfit
          (by rw [hclass]; exact hpass) (by rw [hdoor]; exact hflight) hdrop rfl
        exact laneScan_attempt h hp hl hs hc hk ha hv hdrain (by omega)
      · intro v
        have hdrain := drain_arrival_holds (src := src) (scan := clampScan scan) (u := v) (pos := pos)
          (l := scan.label) htrunk hplace hfirst hphase (by rw [hdoor]; exact hold)
          (by rw [hclass]; exact hfit) (by rw [hclass]; exact hpass) hflight (by rw [hdoor]; exact hdepth)
          hrest rfl
        exact laneScan_attempt h hp hl hs hc hk ha hv hdrain (by omega)
  · intro d l entered ended answer elsewhere freed passed room h hp hl
    have calm {v : State} {x : VerdictResult} (hx : laneKnown entered p d = (Ev.ofScan v l, x)) :
        answer v x := laneScan_calm h hp hx
    have handsOn {v : State} {x : VerdictResult} {ds ts : List Nat} (hx : laneKnown entered p d =
        ({ Ev.ofScan v l with work := ds.map (fun c => .pass c none) ++ ts.map .attempt }, x))
        (hpass : v.passesAlone none ds)
        (ht : ts = [] ∨ ∃ t, ts = [t] ∧ (v.afterPasses ds).attemptEnds t)
        (hn : ds.length ≤ 1000) : answer (v.afterPasses ds) x := laneScan_handsOn h hp hx hpass ht hn
    have attempts {v : State} (c : Bool) (ht : v.attemptEnds t) : (if c then [t] else []) = [] ∨
        ∃ k, (if c then [t] else []) = [k] ∧ v.attemptEnds k := by
      cases c
      · exact .inl rfl
      · exact .inr ⟨t, rfl, ht⟩
    have hlen (o : Option Nat) : o.toList.length ≤ 1000 := by cases o <;> simp
    refine ⟨fun c hs hc hne => ?_, fun hs => ?_, fun hk hr => ⟨fun hs hd => ?_, fun hs hd => ?_,
      fun hs hc hd => ?_, fun hs hc => ?_, fun hs hc hd => ?_, fun home hs hc => ?_⟩⟩
    · have hx := laneKnown_mislane (s := entered) hs hc hne
      rw [laneMislane, show p.label = l from hl] at hx
      exact calm hx
    · have hx := laneKnown_loaded (s := entered) (d := d) hs
      rw [laneLoaded, show p.label = l from hl] at hx
      exact calm hx
    all_goals
      have hplaced : entered.isPlacedAt p.trunk d = decide (r.door? = some d) := by
        rw [hk]
        exact State.isPlacedAt_eq hr d
    · intro left claims staged hpass ht
      obtain ⟨c, hc⟩ : ∃ c : Bool, c = true ↔ claims := ⟨decide claims, decide_eq_true_iff⟩
      have hstaged : left.arrivedUnplanned p d c = staged := by
        show (if c then left.takeClaim p.label d else left).modPallet p.label _ =
          (if claims then left.takeClaim l d else left).modPallet l _
        rw [show p.label = l from hl, if_congr hc rfl rfl]
      have hx := (laneKnown_unplanned (hplaced.trans (decide_eq_true hd)) hs).trans
        (laneUnplanned_eq (s := entered) (d := d) (left := left) (claims := c) hl hk hr rfl rfl hc)
      rw [hstaged, State.attemptFor_eq hk] at hx
      clear_value staged
      have hts (x y : Bool) : (if x then (if y then [t] else []).map Work.attempt else []) =
          (if x && y then [t] else []).map .attempt := by
        cases x <;> rfl
      rw [hts] at hx
      exact handsOn hx hpass (attempts _ ht) (hlen _)
    · intro moved hpass
      have hx := (laneKnown_misplaced (hplaced.trans (decide_eq_false hd)) (.inl hs)).trans
        (laneMisplaced_held (s := entered) (d := d) hs)
      rw [show p.label = l from hl] at hx
      exact handsOn (v := moved) (ds := elsewhere.toList) (ts := [])
        (hx.trans (by rw [List.map_nil, List.append_nil])) hpass (.inl rfl) (hlen _)
    · intro moved hpass
      have hx := (laneKnown_misplaced (hplaced.trans (decide_eq_false hd)) (.inr ⟨hs, hc⟩)).trans
        (laneMisplaced_staged (s := entered) (d := d) hs hc hk hr)
      rw [show p.label = l from hl] at hx
      exact handsOn (v := moved) (ds := r.door?.toList) (ts := [])
        (hx.trans (by rw [List.map_nil, List.append_nil])) hpass (.inl rfl) (hlen _)
    · have hx : laneRescan entered p d = (Ev.ofScan entered p.label, .staged) := by
        unfold laneRescan
        rw [hc]
        rfl
      rw [show p.label = l from hl] at hx
      exact calm ((laneKnown_rescan hs (.inl hc)).trans hx)
    · intro v ht
      have htest : entered.claimTest p d = room entered := State.claimTest_eq hk hr
      have hx := (laneKnown_rescan hs (.inr ⟨hc, hplaced.trans (decide_eq_true hd)⟩)).trans
        (laneRescan_unclaimed (s := entered) hc hl hk)
      rw [htest] at hx
      exact handsOn (ds := []) hx trivial (attempts _ ht) (Nat.zero_le _)
    · intro renewed
      have hknown : laneKnown entered p d = laneReleased entered p d home := by
        rw [laneKnown_released hs, hc]
        rfl
      refine ⟨fun hd hm => ?_, fun hd hm => ?_, fun hd => ?_⟩
      · refine calm (hknown.trans ?_)
        rw [laneReleased, if_pos hd, hm, show p.label = l from hl]
        rfl
      · refine calm (hknown.trans ?_)
        rw [laneReleased, if_pos hd, hm, State.renewLoad, hk, show p.label = l from hl]
        rfl
      · refine calm (hknown.trans ?_)
        rw [laneReleased, if_neg hd, State.renewLoad, hk, show p.label = l from hl]
        rfl

end Sys2Proof.Machine

/-! Flushes of a pallet that waits for its release (R69 to R71, R79 to R81). -/

namespace Sys2Proof.Machine

variable {s v : State} {e : Ev} {p : Pallet} {l : Label} {k : Nat} {r : Trunk} {b : Booking} {cause : Cause}

/-! ## Steps 1 to 4 -/

/-- The state after steps 1 to 4 of a flush of a HELD or STAGED pallet (R69, R71). -/
def State.flushed (s : State) (k : Nat) (l : Label) : State :=
  ((s.modTrunk k (·.leave l)).modPallet l fun p => { p with
    trunk := none, drop := none, position := none, excluded := excludeTrunk p.excluded k }).raise
      .flush (.trunk k)

/-- A pallet's record after these steps. -/
def Pallet.flushed (p : Pallet) (k : Nat) : Pallet :=
  { p with trunk := none, drop := none, position := none, excluded := excludeTrunk p.excluded k }

theorem State.pallet?_flushed (hp : s.pallet? l = some p) :
    (s.flushed k l).pallet? l = some (p.flushed k) :=
  (State.pallet?_raise ..).trans (State.pallet?_modPallet_self (s := s.modTrunk k (·.leave l)) hp _)

theorem State.trunk?_flushed (hr : s.trunk? k = some r) : (s.flushed k l).trunk? k = some (r.leave l) :=
  (State.trunk?_raise ..).trans (State.trunk?_modTrunk_self hr _)

theorem State.bank_flushed (s : State) (k : Nat) (l : Label) :
    (s.flushed k l).bank (s.flushed k l).active = s.bank s.active := by
  obtain ⟨h0, h1, ha, -, -⟩ :=
    State.RoutesAs.raise ((s.modTrunk k (·.leave l)).modPallet l (·.flushed k)) .flush (.trunk k)
  have hsame : s.flushed k l = ((s.modTrunk k (·.leave l)).modPallet l (·.flushed k)).raise .flush (.trunk k) := rfl
  rw [hsame]
  unfold State.bank
  rw [h0, h1, ha]
  rfl

/-- A booking's leave of a window (step 2 of R69). -/
theorem Trunk.leave_eq (hb : r.booking? l = some b) : r.leave l = { r with
    window := r.window.filter (·.label ≠ l)
    bookedQuarters := r.bookedQuarters - b.quarters, bookedKg := r.bookedKg - b.kg
    held := r.held.filter (· ≠ l) } := by
  rw [Trunk.leave, hb]
  rfl

/-- The front booking leaves a window that holds its label once. -/
theorem Trunk.leave_front {rest : List Booking} (hw : r.window = b :: rest)
    (hrest : ∀ x ∈ rest, x.label ≠ b.label) : r.leave b.label = { r with
      window := rest, bookedQuarters := r.bookedQuarters - b.quarters
      bookedKg := r.bookedKg - b.kg, held := r.held.filter (· ≠ b.label) } := by
  have hb : r.booking? b.label = some b := by
    rw [Trunk.booking?, hw, List.find?_cons_of_pos (by simp)]
  have hkept : r.window.filter (fun x => decide (x.label ≠ b.label)) = rest := by
    rw [hw, List.filter_cons_of_neg (by simp)]
    exact List.filter_eq_self.2 fun x hx => decide_eq_true (hrest x hx)
  rw [Trunk.leave_eq hb, hkept]

theorem flush_waiting (hp : e.s.pallet? p.label = some p) (hs : p.state = .held ∨ p.state = .staged)
    (hc : cause ≠ .misload) (hr : e.s.trunk? k = some r) : e.flush k p.label cause =
      let x := ({ e with s := e.s.flushed k p.label } : Ev).rebook p.label false []
      x.1.push (x.2.1 ++ [.flushEnd k x.2.2 r.loadingDrop cause false]) := by
  have htreat : e.s.treat k p = { state := e.s } := by
    unfold State.treat
    rcases hs with h | h <;> rw [h]
  have hstate : ((e.s.withdrawBooking k p.label).modPallet p.label fun q =>
      { q with excluded := excludeTrunk q.excluded k }).raise .flush (.trunk k) = e.s.flushed k p.label := by
    rw [State.withdrawBooking, State.modPallet_modPallet]
    rfl
  unfold Ev.flush
  rw [hp]
  dsimp only
  rw [if_neg hc, if_neg hc, htreat, hr]
  dsimp only
  rw [hstate, if_neg (by nofun), List.append_nil]
  rfl

/-! ## A rebooking that no row serves (R79, R80) -/

/-- The state after a failed rebooking: EXCEPTION, UNROUTED, the claim released, a REWORK move queued. -/
def State.unrouted (s : State) (l : Label) (place : Location) : State :=
  (((s.modPallet l fun p => { p with state := .exception, reason := some .rebookFailed }).raise .unrouted
    (.label l)).releaseClaim l).makeMove l .rework place .rework 0

/-- The record after a claim's release, but for the claim and the flags. -/
theorem State.pallet?_claimReleased (hp : s.pallet? l = some p) :
    ∃ c f, (s.releaseClaim l).pallet? l = some { p with claimDoor := c, flags := f } := by
  rw [State.releaseClaim_eq hp]
  cases p.claimDoor with
  | none => exact ⟨p.claimDoor, p.flags, hp⟩
  | some d => exact ⟨_, _, State.pallet?_modPallet_self (s := s.modDoor d _) hp _⟩

theorem State.rebookFailed_eq (hp : s.pallet? l = some p) (hm : p.move = none) :
    s.rebookFailed l false = s.unrouted l p.location := by
  have hfailed : ((s.enterException l .rebookFailed).raise .unrouted (.label l)).pallet? l =
      some { p with state := .exception, reason := some .rebookFailed } :=
    (State.pallet?_raise ..).trans (State.pallet?_modPallet_self hp _)
  obtain ⟨c, f, hfreed⟩ := State.pallet?_claimReleased hfailed
  unfold State.rebookFailed
  dsimp only
  rw [if_neg (by nofun), State.queueRework, hfreed]
  exact if_neg (by rw [hm]; nofun)

/-- A rebooking for which the choice finds no trunk (R79, R80). -/
theorem rebook_none {row : List Nat × Bool} (hp : e.s.pallet? l = some p) (hm : p.move = none)
    (hrow : e.s.rebookRow p = row)
    (hv : v = e.s.modPallet l fun p => { p with flags := { p.flags with fallback := row.2 } })
    (hc : v.choose { p with flags := { p.flags with fallback := row.2 } } row.1 = none) :
    e.rebook l false [] = ({ e with s := v.unrouted l p.location }, [], p.claimDoor.toList) := by
  have hwritten := State.pallet?_modPallet_self hp fun p => { p with flags := { p.flags with fallback := row.2 } }
  rw [← hv] at hwritten
  unfold Ev.rebook
  rw [hp]
  dsimp only
  rw [hrow, ← hv, hwritten]
  dsimp only
  rw [hc, State.rebookFailed_eq hwritten hm, List.nil_append, dedup_toList]

theorem State.modPallet_fallback (hp : s.pallet? l = some p) :
    (s.modPallet l fun q => { q with flags := { q.flags with fallback := p.flags.fallback } }) = s := by
  have hself : s.modPallet l (fun q => q) = s := by
    unfold State.modPallet
    rw [Table.adjust_self]
  exact (State.modPallet_congr (g := fun q => q) hp rfl).trans hself

/-- A rebooking of a pallet whose depot has no row in the active bank. -/
theorem rebook_noRow (hp : e.s.pallet? l = some p) (hm : p.move = none)
    (hrow : (p.depot.bind fun d => (e.s.bank e.s.active).rowFor p.cls d) = none) :
    e.rebook l false [] = ({ e with s := e.s.unrouted l p.location }, [], p.claimDoor.toList) := by
  have hnone : e.s.rebookRow p = ([], p.flags.fallback) := by rw [State.rebookRow, hrow]
  exact rebook_none hp hm hnone (State.modPallet_fallback hp).symm rfl

/-- A flush of a waiting pallet whose depot has no row in the active bank. -/
theorem flush_noRow (hp : e.s.pallet? p.label = some p) (hs : p.state = .held ∨ p.state = .staged)
    (hm : p.move = none) (hc : cause ≠ .misload) (hr : e.s.trunk? k = some r)
    (hrow : (p.depot.bind fun d => (e.s.bank e.s.active).rowFor p.cls d) = none) :
    e.flush k p.label cause =
      ({ e with s := (e.s.flushed k p.label).unrouted p.label p.location } : Ev).push
        [.flushEnd k p.claimDoor.toList r.loadingDrop cause false] := by
  have hrow' : ((p.flushed k).depot.bind fun d => ((e.s.flushed k p.label).bank
      (e.s.flushed k p.label).active).rowFor (p.flushed k).cls d) = none := by
    rw [State.bank_flushed]
    exact hrow
  rw [flush_waiting hp hs hc hr, rebook_noRow (e := { e with s := e.s.flushed k p.label })
    (State.pallet?_flushed hp) hm hrow']
  rfl

/-! ## What a failed rebooking leaves -/

theorem State.trunk?_unrouted (s : State) (l : Label) (place : Location) (j : Nat) :
    (s.unrouted l place).trunk? j = s.trunk? j := by
  unfold State.unrouted
  rw [State.trunk?_makeMove, State.trunk?_releaseClaim]
  exact State.trunk?_raise ..

/-- Step 6 of a flush that hands on no attempt: passes where claims were released (R81). -/
theorem flushEnd_unchanged {ds : List Nat} {before : Drop} (hr : e.s.trunk? k = some r)
    (h : cause = .trailerFull ∨ r.activeDoor? = none ∨ r.loadingDrop = before) :
    e.flushEnd k ds before cause false = e.push (ds.dedup.map fun d => .pass d none) := by
  have hnot : ¬ (cause ≠ .trailerFull ∧ r.activeDoor?.isSome ∧ r.loadingDrop ≠ before) := by
    rintro ⟨hc, ha, hd⟩
    rcases h with h | h | h
    · exact hc h
    · rw [h] at ha; cases ha
    · exact hd h
  have hwants : ¬ (false = true ∨ (cause ≠ .trailerFull ∧ r.activeDoor?.isSome ∧ r.loadingDrop ≠ before)) :=
    fun hw => hnot (hw.resolve_left (by nofun))
  rw [flushEnd_eq hr]
  simp only [if_neg hnot, if_neg hwants, List.append_nil, List.map_nil]

end Sys2Proof.Machine

/-! The last steps of DROP_TRUNK and DEPART (R51, R56, R57). -/

namespace Sys2Proof.Machine

variable {s t v : State} {e : Ev} {k d : Nat} {r : Trunk} {cause : Cause} {ws : List Work} {u : State}

/-! ## What a pass leaves of the trunks (R86) -/

/-- Two states with the same trunk records but for their held lists. -/
def State.SameButHeld (s t : State) : Prop :=
  ∀ k, (t.trunk? k).map (fun r => { r with held := [] }) = (s.trunk? k).map fun r => { r with held := [] }

namespace State.SameButHeld

theorem same (h : s.SameButHeld t) (hk : v.trunks = t.trunks) : s.SameButHeld v := fun k => by
  rw [State.trunk?, hk]
  exact h k

theorem leaveHeld (h : s.SameButHeld t) (j : Nat) (l : Label) : s.SameButHeld (t.leaveHeld j l) := by
  refine fun i => Eq.trans ?_ (h i)
  unfold State.leaveHeld
  rw [State.trunk?_modTrunk]
  split
  · subst i; cases t.trunk? j <;> rfl
  · rfl

theorem carryOverAll (h : s.SameButHeld t) (a : Option Nat) (d : Nat) : s.SameButHeld (t.carryOverAll a d) := by
  have one (j : Nat) (l : Label) {v : State} (hv : s.SameButHeld v) : s.SameButHeld (v.carryOver j d l) := by
    unfold State.carryOver
    split
    · split
      · exact (hv.leaveHeld j l).same rfl
      · exact hv
    · exact hv
  unfold State.carryOverAll
  split
  · exact h
  · rename_i j
    split
    · exact h
    · rename_i r _
      clear * - h one
      generalize r.held = ls
      induction ls generalizing t with
      | nil => exact h
      | cons l ls ih => exact ih (one j l h)

theorem releaseClaim (h : s.SameButHeld t) (l : Label) : s.SameButHeld (t.releaseClaim l) := by
  obtain ⟨_, _, hfreed⟩ := t.releaseClaim_shape l
  rw [hfreed]
  exact h.same rfl

theorem grantClaim (h : s.SameButHeld t) (l : Label) (d : Nat) : s.SameButHeld (t.grantClaim l d).1 := by
  unfold State.grantClaim
  split
  · exact h
  · rename_i p _
    split
    · exact h.same rfl
    · have left : ∀ v, v = (match p.trunk with
          | some k => t.leaveHeld k l
          | none => t) → s.SameButHeld v := by
        rintro _ rfl
        split
        · exact h.leaveHeld _ _
        · exact h
      have claimed := ((left _ rfl).releaseClaim l).same (v := State.takeClaim _ l d) rfl
      dsimp only
      split
      · exact claimed.same rfl
      · split
        · exact claimed.same rfl
        · exact claimed.same rfl

theorem grantEach {d : Nat} {a : Option Nat} {xs : List (Label × PassTest)} {r : PassResult}
    (h : s.SameButHeld r.state) : s.SameButHeld (Machine.grantEach d a xs r).1.state := by
  induction xs generalizing r with
  | nil => exact h
  | cons x xs ih =>
    rw [Machine.grantEach]
    split
    · exact ih (h.grantClaim _ _)
    · exact h

end State.SameButHeld

theorem State.sameButHeld_afterPass (s : State) (d : Nat) : s.SameButHeld (s.afterPass d) := by
  have hpass : s.SameButHeld (s.grantPass d).state := by
    rw [State.grantPass_eq_grantEach]
    exact .grantEach ((State.SameButHeld.carryOverAll (fun _ => rfl) _ _).carryOverAll _ _)
  exact fun j => (congrArg _ (State.trunk?_report ..)).trans (hpass j)

/-- A trunk's record after a pass and its report, but for the held list. -/
theorem State.trunk?_afterPass (hr : s.trunk? k = some r) (d : Nat) :
    ∃ h, (s.afterPass d).trunk? k = some { r with held := h } := by
  have hsame := s.sameButHeld_afterPass d k
  rw [hr, Option.map_some] at hsame
  obtain ⟨x, hx, hxr⟩ := Option.map_eq_some_iff.1 hsame
  refine ⟨x.held, hx.trans (congrArg some ?_)⟩
  obtain ⟨⟩ := r
  obtain ⟨⟩ := x
  cases hxr
  rfl

/-! ## The record is removed (step 3 of R51, step 4 of R57) -/

/-- Whether a cause finds nothing to flush in a trunk's window (R70). -/
def Trunk.flushedBy (r : Trunk) (cause : Cause) : Prop := ∀ b ∈ r.window, cause.reaches b.standing = false

theorem Ev.flushBookings_none (hr : e.s.trunk? k = some r) (h : r.flushedBy cause) :
    e.flushBookings k cause = e := by
  refine ev_flushBookings_of_none e k cause fun x hx => ?_
  rw [hr, Option.some.injEq] at hx
  exact hx ▸ h

theorem State.removeTrunk_unplaced (hr : s.trunk? k = some r) (hp : r.placement = .unplaced) :
    s.removeTrunk k = s.dropTrunk k := by
  rw [State.removeTrunk, hr, Option.map_some, hp]

/-- A trunk that has left its door, with nothing left to flush, is removed. -/
theorem drain_removed {n : Nat} (hw : e.work = .flushBookings k cause :: .removeTrunk k :: ws)
    (hr : e.s.trunk? k = some r) (hp : r.placement = .unplaced) (hf : r.flushedBy cause)
    (hu : drain n { e with s := e.s.dropTrunk k, work := ws } = some u) : drain (n + 2) e = some u := by
  rw [drain_of_cons (n + 1) hw, Ev.perform,
    Ev.flushBookings_none (e := { e with work := .removeTrunk k :: ws }) hr hf, drain_of_cons n rfl, Ev.perform]
  have hremove : State.removeTrunk (Ev.s { e with work := .removeTrunk k :: ws }) k = e.s.dropTrunk k :=
    State.removeTrunk_unplaced hr hp
  rw [hremove]
  exact hu

theorem drain_leave_unplaced {n : Nat}
    (hw : e.work = .leaveDoor k :: .flushBookings k cause :: .removeTrunk k :: ws)
    (hr : e.s.trunk? k = some r) (hp : r.placement = .unplaced) (hf : r.flushedBy cause)
    (hu : drain n { e with s := e.s.dropTrunk k, work := ws } = some u) : drain (n + 3) e = some u := by
  have hstay : ({ e with work := .flushBookings k cause :: .removeTrunk k :: ws } : Ev).leaveDoor k =
      { e with work := .flushBookings k cause :: .removeTrunk k :: ws } := by
    unfold Ev.leaveDoor
    dsimp only
    rw [hr, Option.map_some, hp]
  rw [drain_of_cons (n + 2) hw, Ev.perform, hstay]
  exact drain_removed rfl hr hp hf hu

/-! ## The hand-over (R56) -/

theorem State.modDoor_congr {f g : Door → Door} (h : f (s.door d) = g (s.door d)) :
    s.modDoor d f = s.modDoor d g := by
  rw [State.modDoor, State.modDoor, h]

/-- The state after a trunk has left its door and the door's lists are closed up. -/
def State.leftDoor (s : State) (k d : Nat) : State :=
  (s.modTrunk k fun r => { r with placement := .unplaced }).modDoor d fun x =>
    { x with active := x.next, next := none, nextPending := false, hold := false }

theorem State.handOver_none (hn : (s.door d).next = none) : s.handOver k d = s.leftDoor k d := by
  unfold State.handOver
  dsimp only
  rw [hn]
  exact State.modDoor_congr (by
    rw [show (s.modTrunk k fun r => { r with placement := .unplaced }).door d = s.door d from rfl, hn])

theorem State.handOver_some {j : Nat} (hn : (s.door d).next = some j) : s.handOver k d =
    (s.leftDoor k d).modTrunk j fun r => { r with placement := .active d } := by
  unfold State.handOver
  dsimp only
  rw [hn]
  refine congrArg (State.modTrunk · j _) (State.modDoor_congr ?_)
  rw [show (s.modTrunk k fun r => { r with placement := .unplaced }).door d = s.door d from rfl, hn]

theorem State.trunk?_leftDoor (hr : s.trunk? k = some r) :
    (s.leftDoor k d).trunk? k = some { r with placement := .unplaced } :=
  State.trunk?_modTrunk_self hr _

/-- A door that its trunk has left with no next one has no trunk. -/
theorem State.door_leftDoor (hn : (s.door d).next = none) :
    ((s.leftDoor k d).door d).active = none ∧ ((s.leftDoor k d).door d).next = none := by
  by_cases h : 1 ≤ d ∧ d ≤ 48
  · have hdoor : (s.leftDoor k d).door d = { s.door d with
        active := (s.door d).next, next := none, nextPending := false, hold := false } :=
      (State.door_modDoor (s.modTrunk k _) d d _ h.1 h.2).trans (if_pos rfl)
    rw [hdoor]
    exact ⟨hn, rfl⟩
  · have hnone (w : State) : w.door d = {} := by
      unfold State.door nth
      by_cases h0 : d = 0
      · rw [if_pos h0]
      · rw [if_neg h0]
        have hsize : w.doors.toArray.size ≤ d - 1 := by
          rw [w.doors.size_toArray]
          omega
        rw [Vector.getD, Array.getD_eq_getD_getElem?, Array.getElem?_eq_none hsize, Option.getD_none]
    rw [hnone]
    exact ⟨rfl, rfl⟩

theorem drain_leave_active {n : Nat} (hw : e.work = .leaveDoor k :: ws) (hr : e.s.trunk? k = some r)
    (hp : r.placement = .active d) (hn : (e.s.door d).next = none)
    (hu : drain n { e with
      work := ws
      s := (e.s.leftDoor k d).reportBalanceHold.reportLanePressure
      deferDoor := none, deferredAttempt := false } = some u) : drain (n + 3) e = some u := by
  obtain ⟨w, hleft⟩ : ∃ w, w = (e.s.leftDoor k d).reportBalanceHold := ⟨_, rfl⟩
  rw [← hleft] at hu
  have hidle : w.doorIdle d := by
    obtain ⟨ha, hx⟩ := State.door_leftDoor (k := k) hn
    intro j x hj _
    rw [hleft, State.reportBalanceHold, State.door_report, ha, hx] at hj
    rcases hj with hj | hj <;> cases hj
  have hleave : ({ e with work := ws } : Ev).leaveDoor k = { e with
      work := .pass d none :: ws, s := w, deferDoor := none, deferredAttempt := false } := by
    unfold Ev.leaveDoor
    dsimp only
    rw [hr, Option.map_some, hp]
    dsimp only
    unfold Ev.handOver
    dsimp only
    rw [hn, State.handOver_none hn, ← hleft]
    rfl
  rw [drain_of_cons (n + 2) hw, Ev.perform, hleave,
    drain_pass_alone n (ws := ws) rfl (by nofun) (hidle.passAlone none)]
  dsimp only
  rw [hidle.afterPass]
  exact hu

/-- A door handed over to its next trunk, whose pass hands on no more than its report and whose attempt
releases nothing. -/
theorem drain_leave_next {n j : Nat} (hw : e.work = .leaveDoor k :: ws) (hrun : e.running = [])
    (hag : e.again = []) (hr : e.s.trunk? k = some r) (hp : r.placement = .active d)
    (hn : (e.s.door d).next = some j)
    (hv : v = ((e.s.leftDoor k d).modTrunk j fun r => { r with placement := .active d }).reportBalanceHold)
    (hpass : v.passAlone d (some j)) (ht : (v.afterPass d).attemptEnds j)
    (hu : drain n { e with
      work := ws, s := v.afterPass d, deferDoor := none, deferredAttempt := false } = some u) :
    drain (n + 131 + 2 + 1) e = some u := by
  have hleave : ({ e with work := ws } : Ev).leaveDoor k = { e with
      work := .pass d (some j) :: .attempt j :: ws, s := v, deferDoor := none, deferredAttempt := false } := by
    unfold Ev.leaveDoor
    dsimp only
    rw [hr, Option.map_some, hp]
    dsimp only
    unfold Ev.handOver
    dsimp only
    rw [hn, State.handOver_some hn, ← hv]
    rfl
  rw [drain_of_cons _ hw, Ev.perform, hleave,
    drain_pass_alone (n + 131) (ws := .attempt j :: ws) rfl (by nofun) hpass]
  exact drain_attempt_ends (e := { e with
    work := .attempt j :: ws, s := v.afterPass d, deferDoor := none, deferredAttempt := false })
    n rfl hrun hag rfl ht hu

/-- A next trunk leaves its door (step 2 of R51), whose pass hands on no more than its report. -/
theorem drain_leave_waiting {n : Nat} (hw : e.work = .leaveDoor k :: ws) (hr : e.s.trunk? k = some r)
    (hp : r.placement = .next d) (hdefer : e.deferredAttempt = false)
    (hv : v = e.s.unplaceNext k d) (hpass : v.passAlone d none)
    (hu : drain n { e with
      work := ws, s := v.afterPass d, deferDoor := none
      deferredAttempt := false } = some u) : drain (n + 3) e = some u := by
  have hleave : ({ e with work := ws } : Ev).leaveDoor k = { e with
      work := .pass d none :: ws, s := v, deferDoor := none, deferredAttempt := false } := by
    unfold Ev.leaveDoor
    dsimp only
    rw [hr, Option.map_some, hp]
    dsimp only
    unfold Ev.unplaceNext
    dsimp only
    rw [← hv]
    cases (e.s.door d).active with
    | none => rfl
    | some a =>
      dsimp only
      rw [hdefer, if_neg (by nofun)]
      rfl
  rw [drain_of_cons (n + 2) hw, Ev.perform, hleave,
    drain_pass_alone n (ws := ws) rfl (by nofun) hpass]
  exact hu

end Sys2Proof.Machine

/-! DROP_TRUNK (R51). -/

namespace Sys2Proof.Machine

variable {s v : State} {e : Ev} {p : Pallet} {l : Label} {k : Nat} {r : Trunk} {cause : Cause}

/-! ## A pallet's record and a raise -/

/-- The state with another table of pallet records. -/
def State.withPallets (s : State) (ps : Table Pallet) : State := { s with pallets := ps }

theorem State.withPallets_ite (c : Prop) [Decidable c] (a b : State) (ps : Table Pallet) :
    (if c then a else b).withPallets ps = if c then a.withPallets ps else b.withPallets ps :=
  apply_ite (·.withPallets ps) c a b

theorem State.placeOwn_withPallets (s : State) (q : Port) (a : Address) (b : OwnBody) (ps : Table Pallet) :
    (s.withPallets ps).placeOwn q a b = (s.placeOwn q a b).withPallets ps := by
  unfold State.placeOwn
  dsimp only
  cases q <;> rw [State.withPallets_ite] <;> rfl

theorem State.noticeTo_withPallets (s : State) (on : Bool) (a : Option Address) (n : Notice)
    (ps : Table Pallet) : (s.withPallets ps).noticeTo on a n = (s.noticeTo on a n).withPallets ps := by
  unfold State.noticeTo
  split
  · exact State.placeOwn_withPallets ..
  · rfl

theorem State.sendNotices_withPallets (s : State) (c : CondName) (ps : Table Pallet) :
    (s.withPallets ps).sendNotices c = (s.sendNotices c).withPallets ps := by
  unfold State.sendNotices
  dsimp only
  rw [← State.noticeTo_withPallets, ← State.noticeTo_withPallets]
  rfl

theorem State.changeRaw_withPallets (s : State) (c : CondName) (x : Bool) (y : Option Subject)
    (ps : Table Pallet) : (s.withPallets ps).changeRaw c x y = (s.changeRaw c x y).withPallets ps := by
  unfold State.changeRaw
  dsimp only
  rw [State.withPallets_ite, ← State.sendNotices_withPallets]
  rfl

/-- A raise reads no pallet record. -/
theorem State.raise_withPallets (s : State) (c : CondName) (x : Subject) (ps : Table Pallet) :
    (s.withPallets ps).raise c x = (s.raise c x).withPallets ps := by
  unfold State.raise
  rw [State.withPallets_ite, ← State.changeRaw_withPallets]
  rfl

theorem State.modPallet_raise (s : State) (c : CondName) (x : Subject) (l : Label) (f : Pallet → Pallet) :
    (s.raise c x).modPallet l f = (s.modPallet l f).raise c x := by
  have hps : (s.raise c x).pallets = s.pallets := State.raise_pallets ..
  have hmod : (s.raise c x).modPallet l f =
      (s.raise c x).withPallets ((s.raise c x).pallets.adjust l.toNat f) := rfl
  rw [hmod, hps, ← State.raise_withPallets]
  rfl

/-! ## The choice after a flush (R66, R68, R79) -/

theorem contains_excludeTrunk (xs : List Nat) (k : Nat) : (excludeTrunk xs k).contains k = true := by
  unfold excludeTrunk
  split
  · assumption
  · dsimp only
    split
    · rename_i h
      have hle : 1 ≤ xs.length := by
        rw [List.length_append, List.length_singleton] at h
        omega
      rw [List.drop_append_of_le_length hle]
      simp
    · simp

theorem State.testCandidate_excluded (h : p.excluded.contains k = true) : s.testCandidate p k = .fails := by
  unfold State.testCandidate
  cases s.trunk? k with
  | none => rfl
  | some r =>
    dsimp only
    rw [h]
    cases r.dropFor p.depot with
    | none => exact ite_self _
    | some drop => exact ite_self _

/-- A choice reads of a pallet its depot, its weight, its quarters and its excluded trunks. -/
structure Pallet.ChosenAs (p q : Pallet) : Prop where
  depot : q.depot = p.depot
  excluded : q.excluded = p.excluded
  quarters : q.quarters = p.quarters
  bookingKg : q.bookingKg = p.bookingKg

/-- A change of an excluded trunk's record changes no choice. -/
theorem State.choose_butExcluded {q : Pallet} (hq : p.ChosenAs q) (hx : p.excluded.contains k = true)
    (hk : ∀ j, j ≠ k → v.trunk? j = s.trunk? j) (hc : v.classes = s.classes) (ts : List Nat) :
    v.choose q ts = s.choose p ts := by
  have htest (j : Nat) : v.testCandidate q j = s.testCandidate p j := by
    by_cases hj : j = k
    · rw [hj, State.testCandidate_excluded hx,
        State.testCandidate_excluded (by rw [hq.excluded]; exact hx)]
    · unfold State.testCandidate State.classOf
      rw [hk j hj, hc, hq.depot, hq.excluded, hq.quarters, hq.bookingKg]
  have hfrom : ∀ i spill, v.chooseFrom q ts i spill = s.chooseFrom p ts i spill := by
    induction ts with
    | nil => intro i spill; rfl
    | cons j js ih => intro i spill; simp only [State.chooseFrom, htest, ih]
  exact hfrom 1 false

/-! ## A rebooking to a trunk that stands at no door (R67, R79) -/

theorem rebook_unplaced {row : List Nat × Bool} {c : Choice} {r : Trunk} (hp : e.s.pallet? l = some p)
    (hrow : e.s.rebookRow p = row)
    (hv : v = e.s.modPallet l fun p => { p with flags := { p.flags with fallback := row.2 } })
    (hc : v.choose { p with flags := { p.flags with fallback := row.2 } } row.1 = some c)
    (hr : v.trunk? c.trunk = some r) (hplace : r.placement = .unplaced) (hscan : e.scanned = none) :
    e.rebook l false [] = ({ e with
      s := v.makeBooking { p with flags := { p.flags with fallback := row.2 } } c }, [], []) := by
  have hwritten := State.pallet?_modPallet_self hp fun p => { p with flags := { p.flags with fallback := row.2 } }
  rw [← hv] at hwritten
  have htrunk := State.trunk?_makeBooking (p := { p with flags := { p.flags with fallback := row.2 } }) hr
  have hdoor : (r.book (v.newBooking { p with flags := { p.flags with fallback := row.2 } } c)).door? = none := by
    rw [Trunk.door?, show Trunk.placement (r.book _) = r.placement from rfl, hplace]
  have hbook : ({ e with s := v } : Ev).book { p with flags := { p.flags with fallback := row.2 } } c =
      ({ e with s := v.makeBooking { p with flags := { p.flags with fallback := row.2 } } c }, []) := by
    unfold Ev.book
    dsimp only
    rw [htrunk, Option.bind_some, hdoor, hscan]
    rfl
  unfold Ev.rebook
  rw [hp]
  dsimp only
  rw [hrow, ← hv, hwritten]
  dsimp only
  rw [hc]
  dsimp only
  rw [hbook]
  dsimp only
  rw [htrunk, Option.bind_some, hdoor]

theorem State.unrouted_unclaimed (hp : s.pallet? l = some p) (hc : p.claimDoor = none) (place : Location) :
    s.unrouted l place = ((s.modPallet l fun p => { p with
      state := .exception, reason := some .rebookFailed }).raise .unrouted (.label l)).makeMove l .rework
        place .rework 0 := by
  have hfailed : ((s.modPallet l fun p => { p with state := .exception, reason := some .rebookFailed }).raise
      .unrouted (.label l)).pallet? l = some { p with state := .exception, reason := some .rebookFailed } :=
    (State.pallet?_raise ..).trans (State.pallet?_modPallet_self hp _)
  rw [State.unrouted, State.releaseClaim_ofNone hfailed hc]

/-- A rebooking's booking, of a pallet that is HELD already (R67). -/
theorem rebooked_eq {c : Choice} (hp : s.pallet? l = some p) (hl : p.label = l) (hs : p.state = .held) :
    s.makeBooking p c = { s with
      bookingCounter := sequenceAfter s.bookingCounter
      trunks := s.trunks.adjust c.trunk (·.book { label := l, drop := c.drop, quarters := p.quarters
                                                  kg := p.bookingKg, seq := s.bookingCounter })
      pallets := s.pallets.adjust l.toNat fun q => { q with
        trunk := some c.trunk, drop := some c.drop, flags := { q.flags with spill := c.spill } } } := by
  have hbook : p.book c = { p with
      trunk := some c.trunk, drop := some c.drop, flags := { p.flags with spill := c.spill } } := by
    rw [Pallet.book, ← hs]
  have hpallets := Table.adjust_congr (f := (·.book c)) (g := fun q : Pallet => { q with
    trunk := some c.trunk, drop := some c.drop, flags := { q.flags with spill := c.spill } }) hp hbook
  subst hl
  rw [State.makeBooking_eq, hpallets]
  rfl

/-! ## The request -/

section
variable {t : Nat}

theorem State.hasFreight_iff (s : State) (t : Nat) (r : Trunk) : s.hasFreight t r = true ↔
    (∃ b ∈ r.window, b.standing = .loaded) ∨
      ∃ e ∈ s.pallets, e.2.state = .misloaded ∧ e.2.location = .trailer t := by
  simp [State.hasFreight, List.any_eq_true]

theorem drain_flushBookings_none {n : Nat} {ws : List Work} {u : State}
    (hw : e.work = .flushBookings k cause :: ws) (hr : e.s.trunk? k = some r) (hf : r.flushedBy cause)
    (hu : drain n { e with work := ws } = some u) : drain (n + 1) e = some u := by
  rw [drain_of_cons n hw, Ev.perform, Ev.flushBookings_none (e := { e with work := ws }) hr hf]
  exact hu

theorem Trunk.flushedBy_empty (h : r.window = []) (cause : Cause) : r.flushedBy cause := by
  intro b hb
  rw [h] at hb
  cases hb

/-- The work of DROP_TRUNK after its flushes, as the answer follows it. -/
def dropTail (t : Nat) (cause : Cause) (due : Bool) : List Work :=
  .leaveDoor t :: .flushBookings t cause :: .removeTrunk t :: (closing ++ [.answer due])

theorem takeRequest_dropTrunk {c : Instr} {n : Nat} {u : State} (h : s.restart = none)
    (hk : isTrunkNumber t = true) (hr : s.trunk? t = some r) (hf : s.hasFreight t r = false)
    (hd : drain n {
      s := s
      deferDoor := r.door?
      work := .flushBookings t .cancelled :: dropTail t .cancelled (s.isDue c) } = some u)
    (hn : n ≤ 10000) : takeRequest c (dropTrunk t) s = .next u := by
  refine takeRequest_event (e := {
    s := s
    deferDoor := r.door?
    work := .flushBookings t .cancelled :: removal t .cancelled }) h ?_ hd hn
  unfold dropTrunk
  rw [hk, hr]
  dsimp only
  rw [hf]
  rfl

theorem drain_dropped {n : Nat} {due : Bool} (hw : e.work = closing ++ [.answer due]) :
    drain (n + 4) e = some (e.s.closeEvent.giveResult due .done none) :=
  drain_mono (drain_closing_answer hw) (by omega)

/-! ## One HELD pallet (R69, R79, R80) -/

/-- The front booking of a window is flushed first (R70). -/
theorem Ev.flushBookings_front {b : Booking} {rest : List Booking} (hr : e.s.trunk? k = some r)
    (hw : r.window = b :: rest) (hc : cause.reaches b.standing = true) :
    e.flushBookings k cause = e.push [.flush k b.label cause, .flushBookings k cause] := by
  have hfind : r.window.find? (fun b => cause.reaches b.standing) = some b := by
    rw [hw]
    exact List.find?_cons_of_pos (p := fun b : Booking => cause.reaches b.standing) hc
  rw [Ev.flushBookings, hr, Option.bind_some, hfind]

/-- The flush of the front booking of a window, of the event's state alone. -/
theorem drain_flushBookings_front {n : Nat} {b : Booking} {rest : List Booking} {r' : Trunk}
    {ws : List Work} {u : State} {ds : List Nat} (hw : e.work = .flushBookings k cause :: ws)
    (hr : e.s.trunk? k = some r) (hb : r.window = b :: rest) (hc : cause.reaches b.standing = true)
    (hflush : ∀ ws, ({ e with work := ws } : Ev).flush k b.label cause =
      { e with s := v, work := .flushEnd k ds r.loadingDrop cause false :: ws })
    (hr' : v.trunk? k = some r')
    (h : cause = .trailerFull ∨ r'.activeDoor? = none ∨ r'.loadingDrop = r.loadingDrop)
    (hu : drain n { e with
      s := v, work := ds.dedup.map (fun d => .pass d none) ++ .flushBookings k cause :: ws } = some u) :
    drain (n + 3) e = some u := by
  have hend := flushEnd_unchanged (e := { e with s := v, work := .flushBookings k cause :: ws })
    (ds := ds) hr' h
  have hflushed : drain (n + 1)
      (({ e with work := .flushBookings k cause :: ws } : Ev).flush k b.label cause) = some u := by
    rw [hflush, drain_of_cons n rfl]
    exact (congrArg (drain n) hend).trans hu
  rw [drain_of_cons (n + 2) hw, Ev.perform, Ev.flushBookings_front (e := { e with work := ws }) hr hb hc]
  exact (drain_of_cons (e := { e with
    work := .flush k b.label cause :: .flushBookings k cause :: ws }) (n + 1) rfl).trans hflushed

/-- DROP_TRUNK of a trunk at no door whose one booking is flushed, the pallet's record handed on as
`flush` says, with no pass owed. -/
theorem takeRequest_dropFlushed {c : Instr} {b : Booking} {w : State} (h : s.restart = none)
    (hk : isTrunkNumber t = true) (hr : s.trunk? t = some r) (hf : s.hasFreight t r = false)
    (hplace : r.placement = .unplaced) (hb : r.window = [b]) (hs : b.standing ≠ .loaded)
    (hflush : ∀ ws, ({ s := s, work := ws } : Ev).flush t b.label .cancelled =
      { s := w, work := .flushEnd t [] r.loadingDrop .cancelled false :: ws })
    (hw : w.trunk? t = some (r.leave b.label)) :
    takeRequest c (dropTrunk t) s = .next ((w.dropTrunk t).closeEvent.giveResult (s.isDue c) .done none) := by
  have hdoor : r.door? = none := by rw [Trunk.door?, hplace]
  have hreached : Cause.reaches .cancelled b.standing = true := by
    cases hx : b.standing with
    | loaded => exact absurd hx hs
    | unreleased => rfl
    | released => rfl
  have hleft : (r.leave b.label).window = [] := by
    rw [Trunk.leave_front hb (by nofun)]
  have hgone : (r.leave b.label).placement = .unplaced := hplace
  have hnone : (r.leave b.label).activeDoor? = none := by rw [Trunk.activeDoor?, hgone]
  have hempty := Trunk.flushedBy_empty hleft .cancelled
  have hgoes : drain (4 + 3 + 1) { s := w, work := .flushBookings t .cancelled :: dropTail t .cancelled (s.isDue c) } =
      some ((w.dropTrunk t).closeEvent.giveResult (s.isDue c) .done none) :=
    drain_flushBookings_none rfl hw hempty (drain_leave_unplaced rfl hw hgone hempty (drain_closing_answer rfl))
  refine takeRequest_dropTrunk (n := 4 + 3 + 1 + 3) h hk hr hf ?_ (by decide)
  rw [hdoor]
  exact drain_flushBookings_front (e := {
    s := s, work := .flushBookings t .cancelled :: dropTail t .cancelled (s.isDue c) })
    (ds := []) rfl hr hb hreached hflush hw (.inr (.inl hnone)) hgoes

end

/-! ## What a rebooking reads after the flush (R79) -/

/-- The state in which the choice of a rebooking is made: the flush, and FALLBACK as the row gives it. -/
def State.rebooking (s : State) (k : Nat) (l : Label) (fallback : Bool) : State :=
  (s.flushed k l).modPallet l fun p => { p with flags := { p.flags with fallback := fallback } }

section
variable {k : Nat} {fallback : Bool}

theorem State.rebooking_eq (s : State) (k : Nat) (l : Label) (fallback : Bool) :
    s.rebooking k l fallback = ((s.modTrunk k (·.leave l)).modPallet l fun p => { p with
      trunk := none, drop := none, position := none, excluded := excludeTrunk p.excluded k
      flags := { p.flags with fallback := fallback } }).raise .flush (.trunk k) := by
  rw [State.rebooking, State.flushed, State.modPallet_raise, State.modPallet_modPallet]

theorem State.pallet?_rebooking (hp : s.pallet? l = some p) : (s.rebooking k l fallback).pallet? l =
    some { p.flushed k with flags := { p.flags with fallback := fallback } } :=
  State.pallet?_modPallet_self (State.pallet?_flushed hp) _

theorem State.trunk?_rebooking (s : State) (k : Nat) (l : Label) (fallback : Bool) {j : Nat} (h : j ≠ k) :
    (s.rebooking k l fallback).trunk? j = s.trunk? j :=
  (State.trunk?_raise ..).trans ((State.trunk?_modTrunk ..).trans (if_neg h))

theorem State.classes_rebooking (s : State) (k : Nat) (l : Label) (fallback : Bool) :
    (s.rebooking k l fallback).classes = s.classes :=
  (State.RoutesAs.raise ((s.modTrunk k (·.leave l)).modPallet l (·.flushed k)) .flush (.trunk k)).classes

theorem State.bookingCounter_rebooking (s : State) (k : Nat) (l : Label) (fallback : Bool) :
    (s.rebooking k l fallback).bookingCounter = s.bookingCounter := by
  obtain ⟨_, _, _, h⟩ := ((s.modTrunk k (·.leave l)).modPallet l (·.flushed k)).raise_eq .flush (.trunk k)
  exact (congrArg State.bookingCounter h :)

/-- The row of a rebooking, and FALLBACK as it leaves it (R27). -/
theorem State.rebookRow_flushed (k : Nat) (l : Label) {row : Option (List Nat × Bool)}
    (hrow : row = p.depot.bind fun d => (s.bank s.active).rowFor p.cls d) :
    (s.flushed k l).rebookRow (p.flushed k) =
      ((row.map Prod.fst).getD [], (row.map Prod.snd).getD p.flags.fallback) := by
  have hread : ((p.flushed k).depot.bind fun d => ((s.flushed k l).bank (s.flushed k l).active).rowFor
      (p.flushed k).cls d) = row := by
    rw [State.bank_flushed, hrow]
    rfl
  rw [State.rebookRow, hread]
  cases row <;> rfl

/-- The choice of a rebooking, as the state before the flush gives it. -/
theorem State.choose_rebooking (s : State) (p : Pallet) (k : Nat) (l : Label) (fallback : Bool)
    (ts : List Nat) : (s.rebooking k l fallback).choose
      { p.flushed k with flags := { p.flags with fallback := fallback } } ts =
        s.choose { p with excluded := excludeTrunk p.excluded k } ts :=
  State.choose_butExcluded (p := { p with excluded := excludeTrunk p.excluded k })
    (q := { p.flushed k with flags := { p.flags with fallback := fallback } }) (k := k) ⟨rfl, rfl, rfl, rfl⟩ (contains_excludeTrunk ..)
    (fun _ h => s.trunk?_rebooking k l fallback h) (s.classes_rebooking ..) ts

/-- A chosen trunk is none of the excluded ones. -/
theorem State.choose_ne {ts : List Nat} {c : Choice}
    (h : s.choose { p with excluded := excludeTrunk p.excluded k } ts = some c) : c.trunk ≠ k := by
  intro hk
  have hpass := (State.chooseFrom_some h).passes
  rw [hk, State.testCandidate_excluded (contains_excludeTrunk ..)] at hpass
  cases hpass

end

/-- Settles O41: the tests in order; a trunk at no door is removed at once or after its flush, one at a
door after the hand-over. -/
theorem dropTrunkRemovesAnEmptyTrunk : Obligations.DropTrunkRemovesAnEmptyTrunk := by
  intro s trunk h c t
  have hc : exec c s = takeRequest c (dropTrunk t) s := rfl
  refine ⟨fun hk => ?_, fun hk hr => ?_, fun r hk hr => ⟨fun hf => ?_, fun hplace hw hf => ?_, ?_⟩⟩
  · refine hc.trans (takeRequest_refused h (if_pos ?_))
    rw [hk]
    rfl
  · refine hc.trans (takeRequest_refused h ?_)
    rw [dropTrunk, hk, hr]
    rfl
  · refine hc.trans (takeRequest_refused h ?_)
    rw [dropTrunk, hk, hr]
    exact if_pos ((s.hasFreight_iff t r).2 hf)
  all_goals
    have hfree {r : Trunk} (hl : ∀ b ∈ r.window, b.standing ≠ .loaded)
        (hm : ∀ e ∈ s.pallets, ¬(e.2.state = .misloaded ∧ e.2.location = .trailer t)) :
        s.hasFreight t r = false := by
      refine Bool.eq_false_iff.2 (mt (s.hasFreight_iff t r).1 ?_)
      rintro (⟨b, hb, hx⟩ | ⟨e, he, hx⟩)
      · exact hl b hb hx
      · exact hm e he hx
  · have hempty := Trunk.flushedBy_empty hw .cancelled
    refine hc.trans (takeRequest_dropTrunk (n := 4 + 3 + 1) h hk hr (hfree (by rw [hw]; nofun) hf) ?_ (by decide))
    exact drain_flushBookings_none rfl hr hempty
      (drain_leave_unplaced rfl hr hplace hempty (drain_closing_answer rfl))
  · intro hloaded hmis done unplaced
    have hfreight := hfree hloaded hmis
    have hdone {v : State} {n : Nat} {x : Trunk} (hw : r.window = []) (hx : v.trunk? t = some x)
        (hplace : x.placement = .unplaced) (hwx : x.window = [])
        (hleave : drain (4 + 2) { s := v, work := .flushBookings t .cancelled :: .removeTrunk t ::
            (closing ++ [.answer (s.isDue c)]) } =
            some ((v.dropTrunk t).closeEvent.giveResult (s.isDue c) .done none) →
          drain n { s := s, deferDoor := r.door?
                    work := dropTail t .cancelled (s.isDue c) } =
            some ((v.dropTrunk t).closeEvent.giveResult (s.isDue c) .done none)) (hn : n ≤ 1000) : done v := by
      refine hc.trans (takeRequest_dropTrunk (n := n + 1) h hk hr hfreight ?_ (by omega))
      exact drain_flushBookings_none rfl hr (Trunk.flushedBy_empty hw _)
        (hleave (drain_removed rfl hx hplace (Trunk.flushedBy_empty hwx _) (drain_closing_answer rfl)))
    refine ⟨fun d hp hw => ?_, fun d hp hw => ?_, fun b p hp hw hpb hl hs hm hclaim => ?_⟩
    · intro idle
      have hidle : idle = s.leftDoor t d := rfl
      have htrunk : idle.trunk? t = some { r with placement := .unplaced } := State.trunk?_leftDoor hr
      clear_value idle
      refine ⟨fun hnext => ?_, fun u hnext hne => ?_⟩
      · refine hdone (v := idle.reportBalanceHold.reportLanePressure) (n := 4 + 2 + 3) hw
          ((State.trunk?_report ..).trans ((State.trunk?_report ..).trans htrunk)) rfl hw (fun hend => ?_) (by omega)
        rw [hidle] at hend ⊢
        exact drain_leave_active rfl hr hp hnext hend
      · intro w hpass ht
        have hwt : w.trunk? t = some { r with placement := .unplaced } :=
          (State.trunk?_report ..).trans ((State.trunk?_modTrunk ..).trans ((if_neg (Ne.symm hne)).trans htrunk))
        have hv : w = ((s.leftDoor t d).modTrunk u fun r => { r with placement := .active d }).reportBalanceHold := by
          rw [← hidle]
        clear_value w
        obtain ⟨x, hx⟩ := State.trunk?_afterPass hwt d
        exact hdone (n := 4 + 2 + 131 + 2 + 1) hw hx rfl hw (fun hend =>
          drain_leave_next rfl rfl rfl hr hp hnext hv hpass ht hend) (by omega)
    · intro w hpass
      have hwt : w.trunk? t = some { r with placement := .unplaced } := State.trunk?_modTrunk_self hr _
      have hv : w = s.unplaceNext t d := rfl
      clear_value w
      obtain ⟨x, hx⟩ := State.trunk?_afterPass hwt d
      exact hdone (n := 4 + 2 + 3) hw hx rfl hw (fun hend =>
        drain_leave_waiting rfl hr hp rfl hv hpass hend) (by omega)
    · intro row gone excluded fallback flushed choice
      have hfront := Trunk.leave_front (b := b) hw (by nofun)
      have hflushed : s.rebooking t b.label fallback = flushed := by
        rw [State.rebooking_eq, State.modTrunk_congr (g := gone) hr hfront]
        exact congrArg (State.raise · .flush (.trunk t))
          (State.modPallet_congr (s := s.modTrunk t gone) (p := p) hpb rfl)
      have hleft : flushed.trunk? t = some (r.leave b.label) := by
        rw [← hflushed]
        exact State.trunk?_flushed hr
      have hrow : (s.flushed t b.label).rebookRow (p.flushed t) = ((row.map Prod.fst).getD [], fallback) :=
        State.rebookRow_flushed t b.label rfl
      have hwritten := State.pallet?_rebooking (k := t) (fallback := fallback) hpb
      have hchoice := s.choose_rebooking p t b.label fallback ((row.map Prod.fst).getD [])
      rw [hflushed] at hwritten hchoice
      have hwait (ws : List Work) := flush_waiting (e := { s := s, work := ws }) (p := p) (k := t)
        (cause := .cancelled) (by rw [hl]; exact hpb) (.inl hs) (by nofun) hr
      rw [hl] at hwait
      clear_value flushed fallback
      have hstanding : b.standing ≠ .loaded := hloaded b (by rw [hw]; exact List.mem_singleton_self b)
      have finish {v : State} (hrebook : ∀ ws, ({ s := s.flushed t b.label, work := ws } : Ev).rebook b.label
          false [] = ({ s := v, work := ws }, [], [])) (hv : v.trunk? t = some (r.leave b.label)) : done v := by
        refine hc.trans (takeRequest_dropFlushed h hk hr hfreight hp hw hstanding (fun ws => ?_) hv)
        have hflush := hwait ws
        dsimp only at hflush
        rw [hrebook ws] at hflush
        exact hflush
      refine ⟨fun hnone => ?_, fun x u hx hu hplace => ?_⟩
      · have hrebook (ws : List Work) := rebook_none (e := { s := s.flushed t b.label, work := ws })
          (State.pallet?_flushed hpb) hm hrow hflushed.symm (hchoice.trans hnone)
        have hunrouted := State.unrouted_unclaimed (place := p.location) hwritten hclaim
        have hlast : (flushed.unrouted b.label p.location).trunk? t = some (r.leave b.label) :=
          (State.trunk?_unrouted ..).trans hleft
        rw [hunrouted] at hlast
        refine finish (fun ws => ?_) hlast
        rw [hrebook ws, show (p.flushed t).claimDoor = none from hclaim,
          show (p.flushed t).location = p.location from rfl, hunrouted] <;> rfl
      · intro booking
        have hne := State.choose_ne hx
        have htrunk : flushed.trunk? x.trunk = some u := by
          rw [← hflushed]
          exact (s.trunk?_rebooking t b.label fallback hne).trans hu
        have hcounter : flushed.bookingCounter = s.bookingCounter := by
          rw [← hflushed]
          exact State.bookingCounter_rebooking ..
        have hrebook (ws : List Work) := rebook_unplaced (e := { s := s.flushed t b.label, work := ws })
          (State.pallet?_flushed hpb) hrow hflushed.symm (hchoice.trans hx) htrunk hplace rfl
        have hbook := rebooked_eq (c := x) hwritten (hl : (p.flushed t).label = b.label) hs
        rw [hcounter] at hbook
        have hlast : (flushed.makeBooking { p.flushed t with
            flags := { p.flags with fallback := fallback } } x).trunk? t = some (r.leave b.label) := by
          rw [State.makeBooking_eq]
          exact (State.trunk?_modTrunk ..).trans ((if_neg (Ne.symm hne)).trans hleft)
        have hend := finish (v := flushed.makeBooking { p.flushed t with
          flags := { p.flags with fallback := fallback } } x) hrebook hlast
        rw [hbook] at hend
        exact hend

end Sys2Proof.Machine

/-! DEPART (R57). -/

namespace Sys2Proof.Machine

variable {s v : State} {e : Ev} {p : Pallet} {r : Trunk} {t d : Nat}

/-! ## The records in the trailer are freed (step 2 of R57) -/

/-- The state after the records in a trailer are freed. -/
def State.trailerFreed (s : State) (t : Nat) : State := (s.inTrailer t).foldl State.freeRecord s

theorem State.trunk?_freeRecord (s : State) (l : Label) (k : Nat) :
    (s.freeRecord l).trunk? k = s.trunk? k := by
  unfold State.freeRecord State.withdrawMove
  obtain ⟨_, _, _, _, _, h⟩ := s.takeMove_eq l true
  have hmove : (s.takeMove l true).trunk? k = s.trunk? k := by
    rw [h]
    rfl
  exact (State.trunk?_report ..).trans ((State.trunk?_releaseClaim ..).trans hmove)

theorem State.door_freeRecord (s : State) (l : Label) (d : Nat) :
    ((s.freeRecord l).door d).next = (s.door d).next := by
  unfold State.freeRecord State.withdrawMove
  obtain ⟨_, _, _, _, _, h⟩ := s.takeMove_eq l true
  have hmove : (s.takeMove l true).door d = s.door d := by
    rw [h]
    rfl
  refine (congrArg Door.next (State.door_report ..)).trans ?_
  exact (State.door_releaseClaim (s.takeMove l true) l d).2.trans (congrArg Door.next hmove)

theorem State.trailerFreed_keeps (s : State) (t : Nat) : (∀ k, (s.trailerFreed t).trunk? k = s.trunk? k) ∧
    ∀ d, ((s.trailerFreed t).door d).next = (s.door d).next := by
  unfold State.trailerFreed
  generalize s.inTrailer t = ls
  induction ls generalizing s with
  | nil => exact ⟨fun _ => rfl, fun _ => rfl⟩
  | cons l ls ih =>
    obtain ⟨htrunk, hdoor⟩ := ih (s.freeRecord l)
    exact ⟨fun k => (htrunk k).trans (s.trunk?_freeRecord l k), fun d => (hdoor d).trans (s.door_freeRecord l d)⟩

/-! ## The request -/

theorem takeRequest_depart {c : Instr} {n : Nat} {u : State} (h : s.restart = none)
    (hk : isTrunkNumber t = true) (hr : s.trunk? t = some r) (hp : r.placement = .active d)
    (hd : drain n { s := s, deferDoor := some d
                    work := .flushBookings t .departed :: .freeLoaded t ::
                      dropTail t .departed (s.isDue c) } = some u)
    (hn : n ≤ 10000) : takeRequest c (departTrunk t) s = .next u := by
  refine takeRequest_event (e := {
    s := s
    deferDoor := some d
    work := [.flushBookings t .departed, .freeLoaded t] ++ removal t .departed }) h ?_ hd hn
  unfold departTrunk
  rw [hk, hr]
  dsimp only
  rw [hp]
  rfl

/-- A window whose bookings are all LOADED. -/
theorem Trunk.flushedBy_loaded (h : ∀ b ∈ r.window, b.standing = .loaded) : r.flushedBy .departed :=
  fun b hb => by rw [h b hb]; rfl

/-- The hand-over and the removal after the records in the trailer are freed, at a door with no next
trunk. -/
theorem drain_departs {due : Bool} (hr : v.trunk? t = some r) (hp : r.placement = .active d)
    (hl : ∀ b ∈ r.window, b.standing = .loaded) (hn : (v.door d).next = none) :
    drain (4 + 2 + 3 + 1) { s := v, deferDoor := some d, work := .freeLoaded t :: dropTail t .departed due } =
      some (((((v.trailerFreed t).leftDoor t d).reportBalanceHold.reportLanePressure).dropTrunk t).closeEvent.giveResult
        due .done none) := by
  obtain ⟨htrunk, hdoor⟩ := v.trailerFreed_keeps t
  obtain ⟨w, hw⟩ : ∃ w, w = v.trailerFreed t := ⟨_, rfl⟩
  rw [← hw] at htrunk hdoor ⊢
  have hend := drain_removed (n := 4) (k := t) (cause := .departed) (r := { r with placement := .unplaced })
    (ws := closing ++ [.answer due]) (e := {
      s := (w.leftDoor t d).reportBalanceHold.reportLanePressure
      work := .flushBookings t .departed :: .removeTrunk t :: (closing ++ [.answer due]) })
    rfl ((State.trunk?_report ..).trans ((State.trunk?_report ..).trans (State.trunk?_leftDoor ((htrunk t).trans hr))))
    rfl (Trunk.flushedBy_loaded hl) (drain_closing_answer rfl)
  have hleave := drain_leave_active (k := t) (e := {
      s := w, deferDoor := some d, work := dropTail t .departed due })
    rfl ((htrunk t).trans hr) hp ((hdoor d).trans hn) hend
  rw [drain_of_cons _ rfl, Ev.perform]
  rw [hw] at hleave ⊢
  exact hleave

/-- The same at a door with a next trunk, whose pass hands on no more than its report and whose attempt
releases nothing. -/
theorem drain_departs_next {due : Bool} {j : Nat} {w : State} (hr : v.trunk? t = some r)
    (hp : r.placement = .active d) (hl : ∀ b ∈ r.window, b.standing = .loaded)
    (hn : (v.door d).next = some j) (hne : j ≠ t)
    (hw : w = (((v.trailerFreed t).leftDoor t d).modTrunk j fun r =>
      { r with placement := .active d }).reportBalanceHold)
    (hpass : w.passAlone d (some j)) (ht : (w.afterPass d).attemptEnds j) :
    drain (4 + 2 + 131 + 2 + 1 + 1) {
        s := v, deferDoor := some d, work := .freeLoaded t :: dropTail t .departed due } =
      some (((w.afterPass d).dropTrunk t).closeEvent.giveResult due .done none) := by
  obtain ⟨htrunk, hdoor⟩ := v.trailerFreed_keeps t
  have hwt : w.trunk? t = some { r with placement := .unplaced } := by
    rw [hw]
    exact (State.trunk?_report ..).trans ((State.trunk?_modTrunk ..).trans ((if_neg (Ne.symm hne)).trans
      (State.trunk?_leftDoor ((htrunk t).trans hr))))
  obtain ⟨x, hx⟩ := State.trunk?_afterPass hwt d
  obtain ⟨f, hf⟩ : ∃ f, f = v.trailerFreed t := ⟨_, rfl⟩
  rw [← hf] at htrunk hdoor hw
  have hend := drain_removed (n := 4) (k := t) (cause := .departed) (ws := closing ++ [.answer due]) (e := {
      s := w.afterPass d
      work := .flushBookings t .departed :: .removeTrunk t :: (closing ++ [.answer due]) })
    rfl hx rfl (Trunk.flushedBy_loaded hl) (drain_closing_answer rfl)
  have hleave := drain_leave_next (k := t) (e := {
      s := f, deferDoor := some d, work := dropTail t .departed due })
    rfl rfl rfl ((htrunk t).trans hr) hp ((hdoor d).trans hn) hw hpass ht hend
  rw [drain_of_cons _ rfl, Ev.perform]
  rw [hf] at hleave
  exact hleave

theorem Trunk.loadingDrop_oneDrop (h : r.dropB = none) : r.loadingDrop = .a := by
  rw [Trunk.loadingDrop, h]
  rfl

/-- A flush of a waiting pallet with no claim, whose depot has no row in the active bank. -/
theorem flush_unclaimed {k : Nat} {b : Booking} {cause : Cause} (hp : e.s.pallet? b.label = some p)
    (hl : p.label = b.label) (hs : p.state = .held) (hm : p.move = none) (hclaim : p.claimDoor = none)
    (hc : cause ≠ .misload) (hr : e.s.trunk? k = some r)
    (hrow : (p.depot.bind fun d => (e.s.bank e.s.active).rowFor p.cls d) = none) :
    e.flush k b.label cause = { e with
      s := (e.s.flushed k b.label).unrouted b.label p.location
      work := .flushEnd k [] r.loadingDrop cause false :: e.work } := by
  have hflush := flush_noRow (by rw [hl]; exact hp) (.inl hs) hm hc hr hrow
  rw [hl, hclaim] at hflush
  exact hflush

/-- The state after such a flush, step by step. -/
theorem State.flushedNowhere_eq {k : Nat} {b : Booking} {f : Trunk → Trunk}
    (hp : s.pallet? b.label = some p) (hclaim : p.claimDoor = none) (hr : s.trunk? k = some r)
    (hf : r.leave b.label = f r) : (s.flushed k b.label).unrouted b.label p.location =
      (((((s.modTrunk k f).modPallet b.label fun p => { p with
          trunk := none, drop := none, position := none, excluded := excludeTrunk p.excluded k }).raise .flush
            (.trunk k)).modPallet b.label fun p => { p with
          state := .exception, reason := some .rebookFailed }).raise .unrouted (.label b.label)).makeMove b.label
            .rework p.location .rework 0 := by
  rw [State.unrouted_unclaimed (State.pallet?_flushed hp) hclaim, State.flushed,
    State.modTrunk_congr (g := f) hr hf]

theorem State.next_flushedNowhere (s : State) (k : Nat) (l : Label) (place : Location) (d : Nat) :
    (((s.flushed k l).unrouted l place).door d).next = (s.door d).next := by
  unfold State.unrouted
  rw [State.door_makeMove, (State.door_releaseClaim ..).2, State.door_raise]
  exact congrArg Door.next (State.door_raise ..)

/-- Settles O43: the tests in order, the flush of a front booking that is not LOADED, the records in the
trailer freed, and the hand-over. -/
theorem departFreesTheTrailerAndHandsTheDoorOver : Obligations.DepartFreesTheTrailerAndHandsTheDoorOver := by
  intro s trunk h c t
  have hc : exec c s = takeRequest c (departTrunk t) s := rfl
  refine ⟨fun hk => ?_, fun hk hr => ?_, fun r hk hr => ⟨fun hp => ?_, fun d hp hl hn => ?_, fun d hp => ?_⟩⟩
  · refine hc.trans (takeRequest_refused h (if_pos ?_))
    rw [hk]
    rfl
  · refine hc.trans (takeRequest_refused h ?_)
    rw [departTrunk, hk, hr]
    rfl
  · refine hc.trans (takeRequest_refused h ?_)
    rw [departTrunk, hk, hr]
    cases hplace : r.placement with
    | unplaced => dsimp only; rw [hplace]; rfl
    | next d => dsimp only; rw [hplace]; rfl
    | active d => exact absurd hplace (hp d)
  · intro freed handed
    have hkept : r.window.filter (fun b => decide (b.standing = .loaded)) = r.window :=
      List.filter_eq_self.2 fun b hb => decide_eq_true (hl b hb)
    have hfreed : s.trailerFreed t = freed := by
      rw [State.trailerFreed, State.inTrailer, hr, Option.map_some, Option.getD_some, hkept]
    have hnext : (freed.door d).next = none := by
      rw [← hfreed]
      exact ((s.trailerFreed_keeps t).2 d).trans hn
    have hhanded : (freed.leftDoor t d).reportBalanceHold.reportLanePressure = handed := by
      have hsame : freed.leftDoor t d = (freed.modTrunk t fun r => { r with placement := .unplaced }).modDoor d
          fun x => { x with active := none, next := none, nextPending := false, hold := false } :=
        State.modDoor_congr (by
          rw [show (freed.modTrunk t fun r => { r with placement := .unplaced }).door d = freed.door d from rfl,
            hnext])
      rw [hsame]
    have hdrain := drain_departs (due := s.isDue c) hr hp hl hn
    rw [hfreed, hhanded] at hdrain
    exact hc.trans (takeRequest_depart h hk hr hp
      (drain_flushBookings_none rfl hr (Trunk.flushedBy_loaded hl) hdrain) (by decide))
  · intro done freed handed
    refine ⟨fun u hl hn hne => ?_, fun b rest p hw hrest hb hlabels hdrop hpb hlabel hs hm hclaim hrow hn => ?_⟩
    · intro w hpass ht
      have hw : w = (((s.trailerFreed t).leftDoor t d).modTrunk u fun r =>
        { r with placement := .active d }).reportBalanceHold := rfl
      clear_value w
      have hdrain := drain_departs_next (due := s.isDue c) hr hp hl hn hne hw hpass ht
      exact hc.trans (takeRequest_depart h hk hr hp
        (drain_flushBookings_none rfl hr (Trunk.flushedBy_loaded hl) hdrain) (by decide))
    · intro flushed
      have hleave := Trunk.leave_front hw hlabels
      obtain ⟨v, hv⟩ : ∃ v, v = (s.flushed t b.label).unrouted b.label p.location := ⟨_, rfl⟩
      have hflushed : v = flushed.makeMove b.label .rework p.location .rework 0 :=
        hv.trans (State.flushedNowhere_eq (f := fun r => { r with
          window := rest, bookedQuarters := r.bookedQuarters - b.quarters
          bookedKg := r.bookedKg - b.kg, held := r.held.filter (· ≠ b.label) }) hpb hclaim hr hleave)
      have htrunk : v.trunk? t = some (r.leave b.label) := by
        rw [hv]
        exact (State.trunk?_unrouted ..).trans (State.trunk?_flushed hr)
      have hnext : (v.door d).next = none := by
        rw [hv]
        exact (State.next_flushedNowhere ..).trans hn
      have hloaded : ∀ x ∈ (r.leave b.label).window, x.standing = .loaded := by
        rw [hleave]
        exact hrest
      have hsame : (r.leave b.label).loadingDrop = r.loadingDrop := by
        rw [Trunk.loadingDrop_oneDrop hdrop, Trunk.loadingDrop_oneDrop (r := r.leave b.label) hdrop]
      have hdrain := drain_departs (due := s.isDue c) htrunk hp hloaded hnext
      have hflush (ws : List Work) := flush_unclaimed (k := t) (cause := .departed)
        (e := { s := s, deferDoor := some d, work := ws }) hpb hlabel hs hm hclaim (by nofun) hr hrow
      have hfront := drain_flushBookings_front (v := v) (ds := []) (e := {
          s := s
          deferDoor := some d
          work := .flushBookings t .departed :: .freeLoaded t :: dropTail t .departed (s.isDue c) })
        rfl hr hw (by rw [hb]; rfl) (fun ws => (hflush ws).trans (by rw [← hv])) htrunk (.inr (.inr hsame))
        (drain_flushBookings_none rfl htrunk (Trunk.flushedBy_loaded hloaded) hdrain)
      rw [hflushed] at hfront
      exact hc.trans (takeRequest_depart h hk hr hp hfront (by decide))

end Sys2Proof.Machine

/-! FORCE_RELEASE (R132). -/

namespace Sys2Proof.Machine

variable {s u v : State} {e : Ev} {w : Walk} {r : Trunk} {t d : Nat} {ws : List Work}

/-! ## The end of a forced walk -/

theorem drain_answerRelease {due : Bool} (hw : e.work = closing ++ [.answerRelease due]) :
    drain 4 e = some (e.s.closeEvent.giveResult due .done (some (.release e.forced))) := by
  rw [drain_closing 1 e _ hw, drain_of_cons 0 rfl]
  have hend (f : Ev) (hf : f.work = []) : drain 0 (f.perform (.answerRelease due)) =
      some (f.s.giveResult due .done (some (.release f.forced))) := drain_of_nil 0 hf
  rw [hend _ rfl]
  simp only [State.closeEvent]

theorem takeRequest_releases {c : Instr} {rule : State → Taken} {n : Nat} (h : s.takes c 16)
    (hr : rule s = .release e)
    (hd : drain n { e with work := e.work ++ [.answerRelease (s.isDue c)] } = some u) (hn : n ≤ 10000) :
    takeRequest c rule s = .next u := by
  obtain ⟨hrestart, hfit⟩ := h
  have hrun := runEvent_of_drain hd (eventBound_ge hn)
  have hroom : s.recordFits (s.isDue c) (Record.release none).size = true := hfit
  unfold takeRequest
  simp only [State.restartPending, hrestart, hr, hroom, Option.isSome_none, Bool.false_eq_true, if_false, if_true]
  exact hrun

theorem drain_attemptDone {n : Nat} (hw : e.work = .attemptDone t :: ws) (hag : e.again = [])
    (hu : drain n { e with work := ws, running := e.running.filter (· ≠ t), again := [] } = some u) :
    drain (n + 1) e = some u := by
  rw [drain_of_cons n hw, Ev.perform, Ev.attemptDone_once (e := { e with work := ws }) hag]
  exact hu

/-- The pass of a changed loading drop, and the attempt's end. -/
theorem drain_passThenDone {n : Nat} {dropped : Prop} [Decidable dropped]
    (hw : e.work = (if dropped then [.pass d none] else []) ++ (.attemptDone t :: ws)) (hag : e.again = [])
    (hd : e.deferDoor = none) (hpass : dropped → e.s.passAlone d none)
    (hu : drain n { e with
      work := ws, s := if dropped then e.s.afterPass d else e.s, running := e.running.filter (· ≠ t)
      again := [] } = some u) : drain (n + 1 + 2) e = some u := by
  by_cases hc : dropped
  · rw [if_pos hc] at hw hu
    rw [drain_pass_alone (n + 1) (ws := .attemptDone t :: ws) hw (by rw [hd]; nofun) (hpass hc)]
    exact drain_attemptDone rfl hag hu
  · rw [if_neg hc] at hw hu
    exact drain_mono (drain_attemptDone hw hag hu) (by omega)

/-- The work after the end of a forced walk: the hold's report, the pass of a changed loading drop, the
attempt's end. -/
theorem drain_walkEnd {n : Nat} {held : Bool} {dropped : Prop} [Decidable dropped]
    (hw : e.work = (if held then [.balanceHold] else []) ++ (if dropped then [.pass d none] else []) ++
      [.attemptDone t] ++ ws) (hag : e.again = []) (hd : e.deferDoor = none)
    (hv : v = if held then e.s.reportBalanceHold else e.s) (hpass : dropped → v.passAlone d none)
    (hu : drain n { e with
      work := ws, s := if dropped then v.afterPass d else v, running := e.running.filter (· ≠ t)
      again := [] } = some u) : drain (n + 1 + 2 + 1) e = some u := by
  rw [List.append_assoc, List.append_assoc] at hw
  cases held with
  | false =>
    rw [if_neg (by nofun)] at hw hv
    subst hv
    exact drain_mono (drain_passThenDone hw hag hd hpass hu) (by omega)
  | true =>
    rw [if_pos rfl] at hw hv
    rw [drain_of_cons (n + 1 + 2) hw, Ev.perform]
    subst hv
    exact drain_passThenDone (e := { e with
      work := (if dropped then [.pass d none] else []) ++ ([.attemptDone t] ++ ws)
      s := e.s.reportBalanceHold }) rfl hag hd hpass hu

/-! ## A forced release (R132) -/

section
variable {b : Booking} {pos : Nat} {f : Fit} {x : Projection} {pre rest : List Booking}

/-- The state after a forced release of booking `b`. -/
def State.forcedRelease (s : State) (t d : Nat) (b : Booking) (f : Fit) (pos : Nat) (x : Projection) : State :=
  (s.releaseBooking t d b f pos x).modPallet b.label fun q => { q with flags := { q.flags with forced := true } }

theorem Ev.release_forced (h : w.forced = true) (hs : e.scanned = none) (b : Booking) (f : Fit) (pos : Nat)
    (x : Projection) : e.release w b f pos x = { e with
      s := e.s.forcedRelease w.trunk w.door b f pos x
      forced := some { label := b.label, position := pos, kingpin := x.kingpin, axle := x.axle } } := by
  have hnot : ¬ e.scanned = some b.label := by
    rw [hs]
    nofun
  rw [Ev.release, h]
  simp only [if_neg hnot, if_true]
  rfl

/-- The forced walk as far as the first candidate. -/
theorem drain_forced_toCandidate {n : Nat} {due : Bool} (hr : s.trunk? t = some r)
    (hflight : r.inFlight < (s.door d).depth) (hfirst : s.firstCandidate r d pre b rest)
    (hu : drain n (({ s.forcedWalk d t r with work := closing ++ [.answerRelease due] } : Ev).walk
      { trunk := t, door := d, forced := true, start := r.loadingDrop
        visited := pre.map Booking.seq }) = some u) :
    drain (n + 1 + pre.length) { s.forcedWalk d t r with
      work := (s.forcedWalk d t r).work ++ [.answerRelease due] } = some u := by
  have hwalk := (drain_of_cons (e := { s.forcedWalk d t r with
    work := .walk { trunk := t, door := d, forced := true, start := r.loadingDrop
                    visited := pre.map Booking.seq } :: (closing ++ [.answerRelease due]) }) n rfl).trans hu
  exact drain_walk_skips (e := { s.forcedWalk d t r with
      work := .walk { trunk := t, door := d, forced := true, start := r.loadingDrop } ::
        (closing ++ [.answerRelease due]) })
    (pre := []) (mid := pre) (post := b :: rest) rfl hr hflight hfirst.window hfirst.seqs rfl
    hfirst.before hwalk

theorem drain_forced_releases {due : Bool} (hr : s.trunk? t = some r)
    (hflight : r.inFlight < (s.door d).depth) (hfirst : s.firstCandidate r d pre b rest)
    (hf : f = r.fit (s.classOf r).rows b.quarters b.kg) (hx : x = r.project (s.classOf r) b.kg pos)
    (hfit : f.target? = some pos)
    (hv : v = if (s.door d).hold then (s.forcedRelease t d b f pos x).reportBalanceHold
      else s.forcedRelease t d b f pos x)
    (hpass : (r.setStanding b.label .released).loadingDrop ≠ r.loadingDrop → v.passAlone d none)
    (hu : u = if (r.setStanding b.label .released).loadingDrop ≠ r.loadingDrop then v.afterPass d else v) :
    drain (4 + 1 + 2 + 1 + 1 + pre.length) { s.forcedWalk d t r with
      work := (s.forcedWalk d t r).work ++ [.answerRelease due] } =
    some (u.closeEvent.giveResult due .done (some (.release (some
      { label := b.label, position := pos, kingpin := x.kingpin, axle := x.axle })))) := by
  refine drain_forced_toCandidate hr hflight hfirst ?_
  have hnext : r.nextBooking (pre.map Booking.seq) = some b :=
    Trunk.nextBooking_after hfirst.window hfirst.seqs
  have hwalk := Ev.walk_candidate (e := { s.forcedWalk d t r with work := closing ++ [.answerRelease due] })
    (w := { trunk := t, door := d, forced := true, start := r.loadingDrop
            visited := pre.map Booking.seq }) hr hflight hnext hfirst.candidate
  dsimp only at hwalk
  rw [show State.classOf (s.forcedWalk d t r).s r = s.classOf r from rfl, ← hf, hfit] at hwalk
  dsimp only at hwalk
  rw [← hx, if_pos rfl, Ev.release_forced rfl rfl] at hwalk
  obtain ⟨z, hz⟩ : ∃ z, z = s.forcedRelease t d b f pos x := ⟨_, rfl⟩
  have htrunk : z.trunk? t = some (r.release b f x) := by
    rw [hz]
    exact State.trunk?_releaseBooking hr d b f pos x
  have hdropped := Trunk.loadingDrop_release r b f x
  rw [← hz] at hv
  dsimp only at hwalk
  rw [show State.forcedRelease (s.forcedWalk d t r).s t d b f pos x = z from hz.symm,
    Ev.endWalk_unmet htrunk rfl] at hwalk
  dsimp only at hwalk
  rw [hdropped, Bool.false_or] at hwalk
  rw [hwalk]
  refine drain_walkEnd (t := t) (d := d) (v := v) (ws := closing ++ [.answerRelease due])
    (held := (s.door d).hold)
    (dropped := (r.setStanding b.label .released).loadingDrop ≠ r.loadingDrop) rfl rfl rfl hv hpass ?_
  rw [hu]
  exact drain_answerRelease rfl

/-! ## A candidate that does not fit (R129) -/

/-- A flush of the only booking of a trunk that loads drop A leaves the walk nothing to take. -/
theorem drain_walk_flushedAll {n : Nat} {r' : Trunk} (hw : e.work = .walk w :: ws)
    (hr : e.s.trunk? w.trunk = some r') (hwin : r'.window = []) (hmet : w.met = false)
    (hhold : w.holdChanged = false) (hstart : w.start = .a) (hag : e.again = [])
    (hu : drain n { e with work := ws, running := e.running.filter (· ≠ w.trunk), again := [] } = some u) :
    drain (n + 2) e = some u := by
  have hnone : r'.nextBooking w.visited = none := by
    rw [Trunk.nextBooking, hwin]
    rfl
  have hdrop : r'.loadingDrop = w.start := by
    rw [Trunk.loadingDrop, hwin, hstart, List.any_nil, Bool.and_false]
    rfl
  rw [drain_of_cons (n + 1) hw, Ev.perform, Ev.walk_ends (e := { e with work := ws }) hr (.inr hnone),
    Ev.endWalk_unmet (e := { e with work := ws }) hr hmet, hhold, if_neg (by nofun),
    if_neg (not_not.2 hdrop)]
  exact drain_attemptDone (e := { e with work := .attemptDone w.trunk :: ws }) rfl hag hu

/-- A flush in a walk, with the pass it hands on. -/
theorem drain_flush_trailerFull {n : Nat} {l : Label} {r' : Trunk}
    (hw : e.work = .flush t l .trailerFull :: ws) (hd : e.deferDoor = none)
    (hflush : ({ e with work := ws } : Ev).flush t l .trailerFull =
      { e with s := v, work := .flushEnd t [d] r.loadingDrop .trailerFull false :: ws })
    (hr : v.trunk? t = some r') (hpass : v.passAlone d none)
    (hu : drain n { e with work := ws, s := v.afterPass d } = some u) : drain (n + 2 + 1 + 1) e = some u := by
  have hend := flushEnd_unchanged (e := { e with s := v, work := ws }) (ds := [d]) (before := r.loadingDrop)
    (cause := .trailerFull) hr (.inl rfl)
  have hpassed := drain_pass_alone (e := { e with s := v, work := .pass d none :: ws }) n (ws := ws) rfl
    (by dsimp only; rw [hd]; nofun) hpass
  rw [drain_of_cons (n + 2 + 1) hw, Ev.perform, hflush, drain_of_cons (n + 2) rfl, Ev.perform]
  exact (congrArg (drain (n + 2)) hend).trans (hpassed.trans hu)

theorem drain_forced_flushes {due : Bool} {p : Pallet} (hr : s.trunk? t = some r)
    (hflight : r.inFlight < (s.door d).depth) (hwin : r.window = [b]) (hdrop : r.loadingDrop = .a)
    (hc : s.isCandidate r d b = true) (hfit : (r.fit (s.classOf r).rows b.quarters b.kg).target? = none)
    (hp : s.pallet? b.label = some p) (hl : p.label = b.label) (hm : p.move = none)
    (hrow : (p.depot.bind fun e => (s.bank s.active).rowFor p.cls e) = none)
    (hv : v = (s.flushed t b.label).unrouted b.label p.location) (hpass : v.passAlone d none) :
    drain (4 + 2 + 2 + 1 + 1 + 1 + 0) { s.forcedWalk d t r with
      work := (s.forcedWalk d t r).work ++ [.answerRelease due] } =
    some ((v.afterPass d).closeEvent.giveResult due .done (some (.release none))) := by
  have hfirst : s.firstCandidate r d [] b [] :=
    { window := hwin, count := by rw [hwin]; simp, seqs := by rw [hwin]; exact List.nodup_singleton _,
      before := by nofun, candidate := hc }
  refine drain_forced_toCandidate hr hflight hfirst ?_
  have hnext : r.nextBooking [] = some b := Trunk.nextBooking_after (pre := []) hfirst.window hfirst.seqs
  have hwalk := Ev.walk_candidate (e := { s.forcedWalk d t r with work := closing ++ [.answerRelease due] })
    (w := { trunk := t, door := d, forced := true, start := r.loadingDrop, visited := [] }) hr hflight hnext hc
  dsimp only at hwalk
  rw [show State.classOf (s.forcedWalk d t r).s r = s.classOf r from rfl, hfit] at hwalk
  have hstaged : p.state = .staged ∧ p.claimDoor = some d := by
    rw [State.isCandidate, hp, Option.any_some] at hc
    simp only [Bool.and_eq_true, decide_eq_true_eq] at hc
    exact hc.2
  have hleft : v.trunk? t = some (r.leave b.label) := by
    rw [hv]
    exact (State.trunk?_unrouted ..).trans (State.trunk?_flushed hr)
  obtain ⟨h, hafter⟩ := State.trunk?_afterPass hleft d
  have hempty : (r.leave b.label).window = [] := by rw [Trunk.leave_front hwin (by nofun)]
  have hflush (ws : List Work) := flush_noRow (e := { s.forcedWalk d t r with work := ws }) (p := p) (k := t)
    (cause := .trailerFull) (by rw [hl]; exact hp) (.inr hstaged.1) hm (by nofun) hr hrow
  rw [hl, hstaged.2] at hflush
  obtain ⟨w, hw⟩ : ∃ w : Walk, w = { trunk := t, door := d, forced := true, start := r.loadingDrop
                                     visited := [] ++ [b.seq] } := ⟨_, rfl⟩
  dsimp only at hwalk
  rw [← hw] at hwalk
  rw [show ([] : List Booking).map Booking.seq = [] from rfl, hwalk]
  have hrest := drain_walk_flushedAll (n := 4) (w := w) (ws := closing ++ [.answerRelease due])
    (r' := { r.leave b.label with held := h }) (e := { s.forcedWalk d t r with
      s := v.afterPass d, work := .walk w :: (closing ++ [.answerRelease due]) })
    rfl (by rw [hw]; exact hafter) hempty (by rw [hw]) (by rw [hw]) (by rw [hw]; exact hdrop) rfl
    (drain_answerRelease rfl)
  exact drain_flush_trailerFull (n := 4 + 2) (v := v) (r := r) (ws := .walk w :: (closing ++ [.answerRelease due]))
    (e := { s.forcedWalk d t r with
      work := .flush t b.label .trailerFull :: .walk w :: (closing ++ [.answerRelease due]) })
    rfl rfl ((hflush _).trans (by rw [hv]; rfl)) hleft hpass hrest

end

/-- Settles O47: the refusals in order, then the walk, forced, over the first candidate. -/
theorem forcedReleaseTakesTheFirstFittingCandidate :
    Obligations.ForcedReleaseTakesTheFirstFittingCandidate := by
  intro s door c d htakes
  have hc : exec c s = takeRequest c (forceRelease d) s := rfl
  refine ⟨fun hd => ?_, fun hd ha => ?_, fun t r hd ha hr => ⟨fun hx => ?_, fun hp hi => ⟨?_, ?_, ?_⟩⟩⟩
  · refine hc.trans (takeRequest_refused htakes.1 (if_pos ?_))
    rw [hd]
    rfl
  · refine hc.trans (takeRequest_refused htakes.1 ?_)
    rw [forceRelease, hd, ha]
    rfl
  · refine hc.trans (takeRequest_refused htakes.1 ?_)
    rw [forceRelease, hd, ha]
    dsimp only
    rw [hr]
    dsimp only
    by_cases hdue : r.phase = .due
    · rw [if_pos hdue]
      rfl
    · rw [if_neg hdue, if_pos (hx.resolve_left hdue)]
      rfl
  · intro pre b rest p hfirst hfit x v u done left
    have hlen := hfirst.before_le
    have hend {w : State} (hpass : left ≠ r.loadingDrop → u.passAlone d none)
        (hw : w = if left ≠ r.loadingDrop then u.afterPass d else u) : done w :=
      hc.trans (takeRequest_releases htakes (forceRelease_walks hd ha hr hp hi)
        (drain_forced_releases hr hi hfirst rfl rfl hfit rfl hpass hw) (by omega))
    exact ⟨fun hsame => hend (fun h => absurd hsame h) (if_neg (not_not.2 hsame)).symm,
      fun hne hpass => hend (fun _ => hpass) (if_pos hne).symm⟩
  · intro hlen hnone
    have hdone := drain_attemptDone (n := 4) (t := t) (ws := closing ++ [.answerRelease (s.isDue c)])
      (e := { s.forcedWalk d t r with
        work := .attemptDone t :: (closing ++ [.answerRelease (s.isDue c)]) }) rfl rfl (drain_answerRelease rfl)
    have hwalk := drain_walk_idle (4 + 1)
      (w := { trunk := t, door := d, forced := true, start := r.loadingDrop })
      (ws := closing ++ [.answerRelease (s.isDue c)]) (e := { s.forcedWalk d t r with
        work := (s.forcedWalk d t r).work ++ [.answerRelease (s.isDue c)] }) rfl hr hnone rfl rfl rfl hdone
    have hleft : r.left [] ≤ 128 :=
      (List.takeWhile_prefix _).length_le.trans (by rw [List.length_reverse]; exact hlen)
    exact hc.trans (takeRequest_releases htakes (forceRelease_walks hd ha hr hp hi) hwalk (by
      dsimp only
      omega))
  · intro b p hwin hdrop hcand hfit hpb hl hm hrow flushed v hpass
    have hv : v = (s.flushed t b.label).unrouted b.label p.location := by
      rw [State.unrouted, State.flushed, State.modTrunk_congr (g := fun r => { r with
        window := [], bookedQuarters := r.bookedQuarters - b.quarters
        bookedKg := r.bookedKg - b.kg, held := r.held.filter (· ≠ b.label) }) hr
        (Trunk.leave_front hwin (by nofun))]
    clear_value v
    exact hc.trans (takeRequest_releases htakes (forceRelease_walks hd ha hr hp hi)
      (drain_forced_flushes hr hi hwin hdrop hcand hfit hpb hl hm hrow hv hpass) (by decide))

end Sys2Proof.Machine

/-! A cut-off that flushes a booking whose pallet no trunk takes (R49, R69, R80). -/

namespace Sys2Proof.Machine

variable {s t v : State} {e : Ev} {p : Pallet} {r : Trunk} {k : Nat} {l : Label}

/-! ## What DUE and a flush leave -/

/-- Two states alike in the parts that no phase, flush, raise or queued move concerns. -/
structure State.SameRest (s v : State) : Prop where
  doors : v.doors = s.doors
  movers : v.movers = s.movers
  freeList : v.freeList = s.freeList
  repeats : v.repeats = s.repeats
  bookingCounter : v.bookingCounter = s.bookingCounter
  clock : v.clock = s.clock
  bank : v.bank v.active = s.bank s.active

namespace State.SameRest

theorem refl (s : State) : s.SameRest s := ⟨rfl, rfl, rfl, rfl, rfl, rfl, rfl⟩

theorem trans (h : s.SameRest t) (h' : t.SameRest v) : s.SameRest v :=
  ⟨h'.doors.trans h.doors, h'.movers.trans h.movers, h'.freeList.trans h.freeList,
    h'.repeats.trans h.repeats, h'.bookingCounter.trans h.bookingCounter, h'.clock.trans h.clock,
    h'.bank.trans h.bank⟩

theorem raise (s : State) (c : CondName) (x : Subject) : s.SameRest (s.raise c x) := by
  obtain ⟨_, _, _, h⟩ := s.raise_eq c x
  rw [h]
  exact ⟨rfl, rfl, rfl, rfl, rfl, rfl, rfl⟩

theorem report (s : State) (c : CondName) (x : Option Subject) : s.SameRest (s.report c x) := by
  obtain ⟨_, _, _, h⟩ := s.report_eq c x
  rw [h]
  exact ⟨rfl, rfl, rfl, rfl, rfl, rfl, rfl⟩

theorem modTrunk (s : State) (k : Nat) (f : Trunk → Trunk) : s.SameRest (s.modTrunk k f) :=
  ⟨rfl, rfl, rfl, rfl, rfl, rfl, rfl⟩

theorem modPallet (s : State) (l : Label) (f : Pallet → Pallet) : s.SameRest (s.modPallet l f) :=
  ⟨rfl, rfl, rfl, rfl, rfl, rfl, rfl⟩

theorem makeMove (s : State) (l : Label) (kind : MoveKind) (a b : Location) (q : Nat) :
    s.SameRest (s.makeMove l kind a b q) :=
  ⟨rfl, rfl, rfl, rfl, rfl, rfl, rfl⟩

theorem flushed (s : State) (k : Nat) (l : Label) : s.SameRest (s.flushed k l) :=
  ((modTrunk ..).trans (modPallet ..)).trans (raise ..)

end State.SameRest

/-- The deadlines of a trunk, of its record and the clock alone. -/
theorem State.deadlines_congr (hr : v.trunk? k = s.trunk? k) (hc : v.clock = s.clock) :
    v.closeReached k = s.closeReached k ∧ v.cutoffReached k = s.cutoffReached k := by
  unfold State.closeReached State.cutoffReached State.reached
  rw [hr, hc]
  exact ⟨rfl, rfl⟩

/-! ## Conditions that stay raised -/

theorem State.raw_raise (s : State) (c : CondName) (x : Subject) :
    ((s.raise c x).condition c).raw = true := by
  unfold State.raise
  split
  · assumption
  · exact s.raw_changeRaw ..

theorem State.condition_makeMove (s : State) (l : Label) (kind : MoveKind) (a b : Location) (q : Nat)
    (c : CondName) : (s.makeMove l kind a b q).condition c = s.condition c := rfl

/-- A raise lowers no condition. -/
theorem State.raw_stays_raise {c : CondName} (h : (s.condition c).raw = true) (k : CondName)
    (x : Subject) : ((s.raise k x).condition c).raw = true := by
  by_cases hk : c = k
  · subst hk
    exact s.raw_raise c x
  · rw [s.condition_raise_ne hk]
    exact h

/-! ## DUE of one trunk (R49) -/

/-- The state after trunk `k` has entered DUE, before its flushes. -/
def State.dueBefore (s : State) (k : Nat) (r : Trunk) : State :=
  (if r.phase = .opened then s.enterClosing k else s).modTrunk k fun r => { r with phase := .due }

theorem State.trunk?_dueBefore (hr : s.trunk? k = some r) :
    (s.dueBefore k r).trunk? k = some { r with phase := .due } := by
  obtain ⟨x, hx⟩ := s.becomeDue_closed hr
  exact State.trunk?_modTrunk_self hx _

theorem State.trunk?_dueBefore_ne (s : State) (r : Trunk) {j : Nat} (h : j ≠ k) :
    (s.dueBefore k r).trunk? j = s.trunk? j := by
  refine (State.trunk?_modTrunk ..).trans ((if_neg h).trans ?_)
  split
  · exact (State.trunk?_enterClosing ..).trans (if_neg h)
  · rfl

theorem State.sameRest_dueBefore (s : State) (k : Nat) (r : Trunk) : s.SameRest (s.dueBefore k r) := by
  refine .trans ?_ (.modTrunk ..)
  split
  · exact (State.SameRest.modTrunk ..).trans (.raise ..)
  · exact .refl s

theorem State.pallet?_dueBefore (s : State) (k : Nat) (r : Trunk) (l : Label) :
    (s.dueBefore k r).pallet? l = s.pallet? l := by
  unfold State.dueBefore
  split
  · exact State.pallet?_raise (s := s.modTrunk k _) ..
  · rfl

theorem State.queue_dueBefore (s : State) (k : Nat) (r : Trunk) (q : Nat) :
    (s.dueBefore k r).queue q = s.queue q := by
  unfold State.dueBefore
  split
  · exact State.queue_raise (s := s.modTrunk k _) ..
  · rfl

theorem Ev.enterDue_flushes (hr : e.s.trunk? k = some r)
    (hb : (r.window.any fun b => b.standing = .unreleased) = true) : e.enterDue k =
      { e with s := e.s.dueBefore k r, work := .flushBookings k .cutOff :: .dueEnd k true :: e.work } := by
  rw [Ev.enterDue, hr]
  dsimp only
  rw [hb]
  rfl

/-! ## The flush of a HELD pallet that no row serves (R69, R80) -/

/-- The state after such a flush. -/
def State.flushedNowhere (s : State) (k : Nat) (l : Label) (p : Pallet) : State :=
  (s.flushed k l).unrouted l p.location

section
variable (hp : s.pallet? l = some p) (hclaim : p.claimDoor = none)
include hp hclaim

/-- The flush, an exception and a REWORK move. -/
theorem State.flushedNowhere_moves : s.flushedNowhere k l p =
    (((s.flushed k l).modPallet l fun p => { p with
      state := .exception, reason := some .rebookFailed }).raise .unrouted (.label l)).makeMove l .rework
        p.location .rework 0 :=
  State.unrouted_unclaimed (State.pallet?_flushed hp) hclaim p.location

theorem State.sameRest_flushedNowhere : s.SameRest (s.flushedNowhere k l p) := by
  rw [State.flushedNowhere_moves hp hclaim]
  exact (((State.SameRest.flushed ..).trans (.modPallet ..)).trans (.raise ..)).trans (.makeMove ..)

theorem State.pallet?_flushedNowhere : ∃ n, (s.flushedNowhere k l p).pallet? l = some { p.flushed k with
    state := .exception, reason := some .rebookFailed
    move := some { number := n, kind := .rework, source := p.location, destination := .rework
                   queue := 0 } } := by
  rw [State.flushedNowhere_moves hp hclaim, State.pallet?_makeMove, if_pos rfl, State.pallet?_raise,
    State.pallet?_modPallet_self (State.pallet?_flushed hp)]
  exact ⟨_, rfl⟩

theorem State.pallet?_flushedNowhere_ne {j : Label} (h : j ≠ l) :
    (s.flushedNowhere k l p).pallet? j = s.pallet? j := by
  rw [State.flushedNowhere_moves hp hclaim, State.pallet?_makeMove, if_neg h, State.pallet?_raise,
    State.pallet?_modPallet, if_neg h, State.flushed, State.pallet?_raise, State.pallet?_modPallet, if_neg h]
  rfl

theorem State.queue_flushedNowhere (q : Nat) : (s.flushedNowhere k l p).queue q =
    if q = 0 then s.queue 0 ++ [l] else s.queue q := by
  have hbefore (j : Nat) : (((s.flushed k l).modPallet l fun p => { p with
      state := .exception, reason := some .rebookFailed }).raise .unrouted (.label l)).queue j = s.queue j :=
    (State.queue_raise ..).trans
      (State.queue_raise (s := (s.modTrunk k (·.leave l)).modPallet l (·.flushed k)) ..)
  rw [State.flushedNowhere_moves hp hclaim, State.queue_makeMove _ _ _ _ (by decide), hbefore, hbefore]

theorem State.raw_flushedNowhere : ((s.flushedNowhere k l p).condition .flush).raw = true ∧
    ((s.flushedNowhere k l p).condition .unrouted).raw = true := by
  have hflush : (((s.flushed k l).modPallet l fun p => { p with
      state := .exception, reason := some .rebookFailed }).condition .flush).raw = true :=
    ((s.modTrunk k (·.leave l)).modPallet l (·.flushed k)).raw_raise .flush (.trunk k)
  rw [State.flushedNowhere_moves hp hclaim, State.condition_makeMove, State.condition_makeMove]
  exact ⟨State.raw_stays_raise hflush _ _, State.raw_raise ..⟩

end

theorem State.trunk?_flushedNowhere (s : State) (k : Nat) (l : Label) (p : Pallet) (j : Nat) :
    (s.flushedNowhere k l p).trunk? j = if j = k then (s.trunk? k).map (·.leave l) else s.trunk? j :=
  (State.trunk?_unrouted ..).trans ((State.trunk?_raise ..).trans (State.trunk?_modTrunk ..))

/-! ## The deadlines of the other trunks -/

/-- Trunks with no reached deadline are passed over. -/
theorem drain_trunkDeadlines_quiet {ws : List Work} {u : State} {rest : List Nat} (n : Nat) (ks : List Nat)
    (hq : ∀ j ∈ ks, e.s.closeReached j = false ∧ e.s.cutoffReached j = false)
    (hw : e.work = .trunkDeadlines (ks ++ rest) :: ws)
    (hu : drain n { e with work := .trunkDeadlines rest :: ws } = some u) :
    drain (n + ks.length) e = some u := by
  induction ks generalizing e with
  | nil =>
    have hsame : e = { e with work := .trunkDeadlines rest :: ws } := by
      cases e
      cases hw
      rfl
    rw [hsame]
    exact hu
  | cons j ks ih =>
    obtain ⟨hc, hd⟩ := hq j List.mem_cons_self
    have hpass : ({ e with work := .trunkDeadlines (ks ++ rest) :: ws } : Ev).trunkDeadline j =
        { e with work := .trunkDeadlines (ks ++ rest) :: ws } := by
      unfold Ev.trunkDeadline
      dsimp only
      rw [hc, hd]
      rfl
    rw [List.length_cons, ← Nat.add_assoc, drain_of_cons (n + ks.length) hw]
    refine (congrArg (drain _) hpass).trans ?_
    exact ih (fun i hi => hq i (List.mem_cons_of_mem j hi)) rfl hu

/-- The deadlines of trunk `k` alone are reached: its cut-off, with one booking to flush, whose pallet
no trunk takes. -/
theorem drain_cutoff_flushed {n : Nat} {ks : List Nat} {ws : List Work} {b : Booking} {u : State}
    (hw : e.work = .trunkDeadlines (k :: ks) :: ws) (hr : e.s.trunk? k = some r)
    (hd : e.s.cutoffReached k = true) (hplace : r.placement = .unplaced) (hb : r.window = [b])
    (hs : b.standing = .unreleased)
    (hv : v = (e.s.dueBefore k r).flushedNowhere k b.label p)
    (hflush : ∀ ws, ({ e with s := e.s.dueBefore k r, work := ws } : Ev).flush k b.label .cutOff =
      { e with
        s := v
        work := .flushEnd k [] ({ r with phase := .due } : Trunk).loadingDrop .cutOff false :: ws })
    (hu : drain n { e with s := v.raise .trunkDue (.trunk k), work := .trunkDeadlines ks :: ws } = some u) :
    drain (n + 6) e = some u := by
  obtain ⟨x, hx⟩ : ∃ x : Trunk, x = { r with phase := .due } := ⟨_, rfl⟩
  have hdue : (e.s.dueBefore k r).trunk? k = some x := hx ▸ State.trunk?_dueBefore hr
  have hleft : v.trunk? k = some (x.leave b.label) := by
    rw [hv, State.trunk?_flushedNowhere, if_pos rfl, hdue]
    rfl
  have hwindow : x.window = [b] := by rw [hx]; exact hb
  have hgone : x.leave b.label = { x with
      window := [], bookedQuarters := x.bookedQuarters - b.quarters
      bookedKg := x.bookedKg - b.kg, held := x.held.filter (· ≠ b.label) } :=
    Trunk.leave_front hwindow (by nofun)
  have hempty : (x.leave b.label).window = [] := by rw [hgone]
  have hnodoor : (x.leave b.label).activeDoor? = none := by
    rw [hgone, Trunk.activeDoor?, hx]
    dsimp only
    rw [hplace]
  have henter : ({ e with work := .trunkDeadlines ks :: ws } : Ev).trunkDeadline k = { e with
      s := e.s.dueBefore k r
      work := .flushBookings k .cutOff :: .dueEnd k true :: .trunkDeadlines ks :: ws } := by
    unfold Ev.trunkDeadline
    rw [if_pos hd, Ev.enterDue_flushes (e := { e with work := .trunkDeadlines ks :: ws }) hr
      (by rw [hb, List.any_cons, hs]; rfl)]
  have hend : drain (n + 1) { e with
      s := v, work := .dueEnd k true :: .trunkDeadlines ks :: ws } = some u := by
    rw [drain_of_cons n rfl, Ev.perform, Ev.dueEnd, Bool.true_or, if_pos rfl]
    exact hu
  rw [drain_of_cons (n + 5) hw]
  refine (congrArg (drain _) henter).trans ?_
  rw [← hx] at hflush
  exact drain_flushBookings_front (e := { e with
      s := e.s.dueBefore k r
      work := .flushBookings k .cutOff :: .dueEnd k true :: .trunkDeadlines ks :: ws })
    (ds := []) rfl hdue hwindow (by rw [hs]; rfl) hflush hleft (.inr (.inl hnodoor))
    (drain_flushBookings_none rfl hleft (Trunk.flushedBy_empty hempty _) hend)

/-! ## The event -/

/-- The clock's report where trunk `k` alone has a reached deadline, whose cut-off flushes a booking that
no trunk takes. -/
theorem runEvent_cutoff_flushed {b : Booking} (hk : isTrunkNumber k = true) (hr : s.trunk? k = some r)
    (hd : s.cutoffReached k = true)
    (hother : ∀ u, u ≠ k → s.closeReached u = false ∧ s.cutoffReached u = false)
    (hplace : r.placement = .unplaced) (hb : r.window = [b]) (hs : b.standing = .unreleased)
    (hp : s.pallet? b.label = some p) (hl : p.label = b.label) (hstate : p.state = .held)
    (hm : p.move = none) (hclaim : p.claimDoor = none)
    (hrow : (p.depot.bind fun d => (s.bank s.active).rowFor p.cls d) = none)
    (hv : v = (s.dueBefore k r).flushedNowhere k b.label p) :
    runEvent { s := s, work := [.trunkReport] } = .next (v.raise .trunkDue (.trunk k)).closeEvent := by
  have hdue := s.sameRest_dueBefore k r
  have hpallet : (s.dueBefore k r).pallet? b.label = some p := (s.pallet?_dueBefore k r b.label).trans hp
  have hrest : s.SameRest v := hv ▸ hdue.trans (State.sameRest_flushedNowhere hpallet hclaim)
  have hquiet (j : Nat) (hj : j ≠ k) : (v.raise .trunkDue (.trunk k)).closeReached j = false ∧
      (v.raise .trunkDue (.trunk k)).cutoffReached j = false := by
    have htrunk : v.trunk? j = s.trunk? j := by
      rw [hv, State.trunk?_flushedNowhere, if_neg hj]
      exact s.trunk?_dueBefore_ne r hj
    obtain ⟨hc, hx⟩ := State.deadlines_congr htrunk hrest.clock
    rw [State.closeReached_raise, State.cutoffReached_raise, hc, hx]
    exact hother j hj
  obtain ⟨pre, post, hsplit⟩ := List.append_of_mem (mem_trunkNumbers hk)
  have hnodup := hsplit ▸ nodup_trunkNumbers
  have hpre : ∀ j ∈ pre, j ≠ k := fun j hj hjk =>
    (List.nodup_append.1 hnodup).2.2 j hj k List.mem_cons_self hjk
  have hpost : ∀ j ∈ post, j ≠ k := fun j hj hjk =>
    (List.nodup_cons.1 (List.nodup_append.1 hnodup).2.1).1 (hjk ▸ hj)
  have hlength : pre.length + (post.length + 1) = 128 := by
    rw [← trunkNumbers_length, hsplit, List.length_append, List.length_cons]
  have hflush (ws : List Work) := flush_unclaimed (k := k) (cause := .cutOff)
    (e := { s := s.dueBefore k r, work := ws }) hpallet hl hstate hm hclaim (by nofun)
    (State.trunk?_dueBefore hr) (by rw [hdue.bank]; exact hrow)
  have hclosing : drain (0 + 3 + 1) {
        s := v.raise .trunkDue (.trunk k), work := .trunkDeadlines [] :: closing } =
      some (v.raise .trunkDue (.trunk k)).closeEvent := by
    rw [drain_of_cons (0 + 3) rfl]
    exact drain_closing 0 _ [] (List.append_nil _).symm
  have hlast := drain_trunkDeadlines_quiet (e := {
      s := v.raise .trunkDue (.trunk k), work := .trunkDeadlines (post ++ []) :: closing })
    _ post (fun j hj => hquiet j (hpost j hj)) rfl hclosing
  rw [List.append_nil] at hlast
  have hat := drain_cutoff_flushed (e := { s := s, work := .trunkDeadlines (k :: post) :: closing })
    rfl hr hd hplace hb hs hv (fun ws => (hflush ws).trans (by rw [hv]; rfl)) hlast
  have hall := drain_trunkDeadlines_quiet (e := {
      s := s, work := .trunkDeadlines (pre ++ k :: post) :: closing })
    _ pre (fun j hj => hother j (hpre j hj)) rfl hat
  have hreport : ({ s := s } : Ev).trunkReport =
      { s := s, work := .trunkDeadlines (pre ++ k :: post) :: closing } := by
    unfold Ev.trunkReport Ev.push
    dsimp only
    rw [if_pos (List.any_eq_true.2 ⟨k, mem_trunkNumbers hk, hd⟩), hsplit, List.append_nil]
  refine runEvent_of_drain (n := 0 + 3 + 1 + post.length + 6 + pre.length + 1) ?_ (eventBound_ge (by omega))
  rw [drain_of_cons _ rfl]
  exact (congrArg (drain _) hreport).trans hall

/-- Settles O31: the report takes the one reached cut-off, whose flush finds no row. -/
theorem cutoffFlushThatNoTrunkTakesIsAnException :
    Obligations.CutoffFlushThatNoTrunkTakesIsAnException := by
  intro s trunk r b p k hr hd hk hother hplace hb hs hp hl hstate hm hclaim hrow hfree
  obtain ⟨due, hdue⟩ : ∃ v, v = s.dueBefore k r := ⟨_, rfl⟩
  obtain ⟨v, hv⟩ : ∃ v, v = due.flushedNowhere k b.label p := ⟨_, rfl⟩
  have hrun := runEvent_cutoff_flushed hk hr hd hother hplace hb hs hp hl hstate hm hclaim hrow
    (hv.trans (by rw [hdue]))
  have hpallet : due.pallet? b.label = some p := by
    rw [hdue]
    exact (s.pallet?_dueBefore k r b.label).trans hp
  have htrunk : v.trunk? k = some (Trunk.leave { r with phase := .due } b.label) := by
    rw [hv, State.trunk?_flushedNowhere, if_pos rfl, hdue, State.trunk?_dueBefore hr]
    rfl
  have hrest : s.SameRest v :=
    hv ▸ (hdue ▸ s.sameRest_dueBefore k r : s.SameRest due).trans
      (State.sameRest_flushedNowhere hpallet hclaim)
  obtain ⟨hflush, hunrouted⟩ := State.raw_flushedNowhere (k := k) hpallet hclaim
  obtain ⟨n, hrecord⟩ := State.pallet?_flushedNowhere (k := k) hpallet hclaim
  rw [← hv] at hflush hunrouted hrecord
  obtain ⟨raised, hraised⟩ : ∃ w, w = v.raise .trunkDue (.trunk k) := ⟨_, rfl⟩
  have hcalm : raised.reportLanePressure.grantAttempt = raised.reportLanePressure := by
    refine State.grantAttempt_of_nil ((State.report_freeList ..).trans ?_)
    rw [hraised, State.raise_freeList]
    exact hrest.freeList.trans hfree
  have hclose : raised.closeEvent = raised.reportLanePressure.reportMoversShort := by
    rw [State.closeEvent, hcalm]
  have hkept : s.SameRest raised.closeEvent := by
    rw [hclose, hraised]
    exact ((hrest.trans (.raise ..)).trans (.report ..)).trans (.report ..)
  have hpallets (j : Label) : raised.closeEvent.pallet? j = v.pallet? j := by
    rw [hclose, hraised]
    exact (State.pallet?_report ..).trans ((State.pallet?_report ..).trans (State.pallet?_raise ..))
  have htrunks (j : Nat) : raised.closeEvent.trunk? j = v.trunk? j := by
    rw [hclose, hraised]
    exact (State.trunk?_report ..).trans ((State.trunk?_report ..).trans (State.trunk?_raise ..))
  have hqueues (q : Nat) : raised.closeEvent.queue q =
      if q = 0 then s.queue 0 ++ [b.label] else s.queue q := by
    rw [hclose, hraised]
    refine (State.queue_report ..).trans ((State.queue_report ..).trans ((State.queue_raise ..).trans ?_))
    rw [hv, State.queue_flushedNowhere hpallet hclaim, hdue, State.queue_dueBefore, State.queue_dueBefore]
  have hraw {c : CondName} (hc : c ≠ .lanePressure) (hx : c ≠ .moversShort)
      (h : (raised.condition c).raw = true) : (raised.closeEvent.condition c).raw = true := by
    rw [hclose, State.reportMoversShort, State.condition_report_ne _ hx, State.reportLanePressure,
      State.condition_report_ne _ hc]
    exact h
  rw [← hraised] at hrun
  refine ⟨raised.closeEvent, n, (exec_cutoffReached s trunk).trans ((if_pos hd).trans hrun), ?_, ?_,
    (hqueues 0).trans (if_pos rfl), fun j hj => ?_, fun u hu => ?_, fun q hq => (hqueues q).trans (if_neg hq),
    hkept.doors, hkept.movers, hkept.freeList.trans hfree, hkept.repeats, hkept.bookingCounter,
    hraw (by decide) (by decide) ?_, hraw (by decide) (by decide) ?_, hraw (by decide) (by decide) ?_⟩
  · exact (hpallets _).trans hrecord
  · refine (htrunks k).trans (htrunk.trans (congrArg some ?_))
    exact Trunk.leave_front (r := { r with phase := .due }) hb (by nofun)
  · rw [hpallets, hv, State.pallet?_flushedNowhere_ne hpallet hclaim hj, hdue]
    exact s.pallet?_dueBefore k r j
  · rw [htrunks, hv, State.trunk?_flushedNowhere, if_neg hu, hdue]
    exact s.trunk?_dueBefore_ne r hu
  · rw [hraised]
    exact State.raw_stays_raise hflush _ _
  · rw [hraised]
    exact State.raw_stays_raise hunrouted _ _
  · rw [hraised]
    exact v.raw_raise ..

end Sys2Proof.Machine
